-- ==== Sys2Proof/Word.lean ====
section
/-! DEFINITION. The word types of the Opran 820 and the names shared by every message, frame and record (spec 00_scope.md,
"Conventions"; R187). -/

namespace Sys2Proof

/-- One byte of a message, notice or frame (R187). -/
abbrev Byte := BitVec 8

/-- One 32-bit word of a title port, of a site line or of the service window (R166, R178, R189). -/
abbrev Word := BitVec 32

/-- A print site and its line, S0 to S7. -/
abbrev Site := Fin 8

/-- A colour target slot, 0 to 31 (R82). -/
abbrev SlotNo := Fin 32

/-- A site mask: bit n set for site Sn (R187). -/
abbrev SiteSet := BitVec 8

/-- A set of separations: bit n set for the separation coded n (R187). -/
abbrev SepSet := BitVec 4

/-- The two titles; each owns one title port. -/
inductive Title where
  | a
  | b
deriving DecidableEq, Repr

/-- The four separations C, M, Y, K, with indices 0 to 3 in that order. -/
inductive Sep where
  | c
  | m
  | y
  | k
deriving DecidableEq, Repr

/-- The three ports that carry production traffic (chapter 9). -/
inductive PortId where
  | title (t : Title)
  | desk
deriving DecidableEq, Repr

/-- All sites in site order, S0 to S7. -/
def allSites : List Site := [0, 1, 2, 3, 4, 5, 6, 7]

/-- All target slots in slot order. -/
def allSlots : List SlotNo :=
  [0, 1, 2, 3, 4, 5, 6, 7, 8, 9, 10, 11, 12, 13, 14, 15] ++ [16, 17, 18, 19, 20, 21, 22, 23, 24, 25, 26, 27, 28, 29, 30, 31]

/-- All separations in the order C, M, Y, K. -/
def allSeps : List Sep := [.c, .m, .y, .k]

end Sys2Proof
end

