-- ==== Sys2Proof/Syntax.lean ====
section
/-! DEFINITION. The commands of the block: one constructor of Instr per row of spec/opcode_table.json. Operands are the fields of
chapter 11 as they travel (bytes and words), the port or line the command arrives on, and for a DRAM read what its ECC found. -/

namespace Sys2Proof

/-- One site record of an EDITION_DECLARE body (R67, R188). -/
structure SiteDecl where
  site : Byte
  pressStart : Word
  pageCount : Byte
deriving DecidableEq, Repr

/-- The fields of an IMAGE_BEGIN body (R188). -/
structure BeginMsg where
  edition : Byte
  page : Byte
  separation : Byte
  version : Byte
  bandCount : BitVec 16
  width : Word
  height : Word
  totalBytes : Word
deriving DecidableEq, Repr

/-- The fields of a TARGET_LOAD body (R84, R188); `records` holds the bytes after the patch count. -/
structure LoadMsg where
  slot : Byte
  mask : Byte
  name0 : Byte
  name1 : Byte
  name2 : Byte
  name3 : Byte
  patchCount : Byte
  records : List Byte
deriving DecidableEq, Repr

/-- What the ECC finds in one DRAM read (R61, R62): how many words it corrects, and whether it meets a word it cannot correct. Which
words of the DRAM hold a flipped bit is the memory's, outside the part (log 8). -/
structure EccOutcome where
  corrected : Nat
  uncorrectable : Bool
deriving DecidableEq, Repr

/-- A frame of a line whose words are not those of a sound frame: its words from the header word on, as the receiver delimits it
(R157, R158). -/
structure LineFrame where
  line : Site
  words : List Word
deriving DecidableEq, Repr

/-- Word positions of a line outside a frame, one after another, `none` where no word came (R158). -/
structure LineGap where
  line : Site
  positions : List (Option Word)
deriving DecidableEq, Repr

/-- The commands: the rows of spec/opcode_table.json in the table's order. The `halves` of a MEASURE are the half words of its
reading words, first half first (R189). -/
inductive Instr where
  | hardReset
  | start
  | softRestart
  | lineReset (site : Byte)
  | capture (site : Byte)
  | unknownCommand (code : Byte)
  | configWrite (addr : BitVec 12) (value : Word)
  | errorReportRead
  | attentionRead
  | attentionEnableWrite (value : Word)
  | titleWordIn (port : Title) (word : Word)
  | assemblerByte (port : Title)
  | resync (port : Title)
  | resyncRelease (port : Title)
  | outboundWordSent (port : Title)
  | deskCharacterSent
  | deskCharacter (char : Byte) (stopLow : Bool)
  | deskBreak
  | editionDeclare (port : Title) (edition : Byte) (sites : List SiteDecl)
  | editionRetire (port : Title) (edition : Byte)
  | editionFreed (title : Title) (edition : Byte)
  | pageDeclare (port : Title) (edition page colour mask slot : Byte)
  | imageBegin (port : Title) (msg : BeginMsg)
  | band (port : Title) (mark : Byte) (payload : List Byte)
  | imageEnd (port : Title) (total crc : Word)
  | targetLoad (port : Title) (msg : LoadMsg)
  | pageQuery (port : PortId) (tag title edition page : Byte)
  | editionQuery (port : PortId) (tag title edition : Byte)
  | approve (tag title edition page version : Byte)
  | kill (tag title edition page : Byte)
  | hold (tag title edition : Byte)
  | unhold (tag title edition : Byte)
  | close (tag title edition site : Byte)
  | setClock (tag mode : Byte) (value : Word)
  | clockSecond
  | cutoffExpiry
  | lineRetry (tag site : Byte)
  | pendingRetrain (line : Site)
  | colourClear (tag site slot : Byte)
  | siteQuery (tag site : Byte)
  | colourQuery (tag site slot : Byte)
  | admission
  | targetWantServed
  | handOver (line : Site)
  | frameLeftLine (line : Site)
  | bandReadDone (line : Site) (ecc : EccOutcome)
  | scrub (ecc : EccOutcome)
  | openAck (line : Site) (tag : Byte) (resume : BitVec 16)
  | bandAck (line : Site) (tag : Byte) (count : BitVec 16)
  | plateDone (line : Site) (tag : Byte)
  | plateRefused (line : Site) (tag : Byte) (reason : Word)
  | abortAck (line : Site) (tag : Byte)
  | targetHeld (line : Site) (slot : Byte) (generation : BitVec 16)
  | withdrawAck (line : Site) (tag : Byte)
  | pressRun (line : Site) (title edition : Byte)
  | measure (line : Site) (slot count : Byte) (generation : BitVec 16) (halves : List (BitVec 16))
  | siteRestart (line : Site)
  | tAckExpiry (line : Site)
  | tConfExpiry (line : Site)
  | badFrame (frame : LineFrame)
  | framingLoss (gap : LineGap)
  | trainWordPeriod (line : Site) (received : Option Word)
  | attemptNoLock (line : Site)
  | attemptStuck (line : Site)
  | measureWindowEnd (line : Site)
  | tRetryExpiry (line : Site)
  | frameNotInbound (line : Site) (frameType : Byte) (bodyWords : BitVec 16)
deriving DecidableEq, Repr

end Sys2Proof
end

