-- ==== Sys2Proof/Decode.lean ====
section
/-! DEFINITION. Decoding. The opcode table gives no row any bits, so no word spells a command; the lengths of the line envelope that
tell a bad frame and a protocol error from an inbound frame (R189) stand here too. -/

namespace Sys2Proof

/-- The command a word spells by the table's bits: the table gives none. -/
def decodeTableWord (_nbits _w : Nat) : Option Instr := none

/-- The largest body length in words that the line envelope allows (R189). -/
def frameLimit : Nat := 61442

/-- The body length in words the line table gives an inbound frame type agrees with `words` (R189); false for a type that is not
inbound. A MEASURE body is one word and its reading words; that they agree with its reading count is judged with the frame. -/
def inboundLengthOk (frameType : Byte) (words : Nat) : Bool :=
  match frameType.toNat with
  | 0x81 => words == 1
  | 0x82 => words == 1
  | 0x83 => words == 0
  | 0x84 => words == 1
  | 0x85 => words == 0
  | 0x86 => words == 1
  | 0x87 => words == 0
  | 0x88 => words == 1
  | 0x89 => Nat.ble 1 words
  | 0x8A => words == 0
  | _ => false

end Sys2Proof
end

