-- ==== Sys2Proof/Config.lean ====
section
/-! DEFINITION. What an implementation of the Opran 820 fixes and the spec leaves open: free values without a body. -/

namespace Sys2Proof

/-- The packing of the snapshot word at offset 0x17 (R186): the spec says the word shows the level, the attempt number and the last
verdict with its measured error count, and gives no bit places. A free value of level code, attempt, verdict code and error count
(log 20). -/
opaque Config.snapshotWord : Nat → Nat → Nat → Nat → Word

end Sys2Proof
end

