-- ==== Sys2Proof/Machine/State.lean ====
section
/-! DEFINITION. The state of the Opran 820: every piece of state the spec gives the part, and the queue of waiting commands. Each block
owns its records (00_scope.md, "Block overview"). Plain data throughout. -/

namespace Sys2Proof.Machine

/-- A pair of like things, one for each title. -/
structure PerTitle (α : Type) where
  a : α
  b : α
deriving DecidableEq, Repr

/-! ### Names -/

/-- The identity of a page: title, edition code and page number (00_scope.md). -/
structure PageKey where
  title : Title
  edition : Nat
  page : Nat
deriving DecidableEq, Repr

/-- The result codes in the order of their numbers 0x00 to 0x20 (R187). -/
inductive Result where
  | ok | noEdition | editionClosed | notClosed | noPage | pageKilled | liveLocked | tableFull | siteInUse | badMask | staleVersion
  | noSuchVersion | alreadyReleased | badSeparation | duplicateSeparation | storeFull | overrun | incomplete | badBandSequence
  | bandTooLong | bandCountMismatch | byteCountMismatch | checkFailed | resync | protocol | badSlot | badTarget | slotExhausted
  | poolFull | notHeld | lineBusy | clockNotSet | badArgument
deriving DecidableEq, Repr

/-! ### Service Port (chapter 10) -/

/-- The part's phase (R181). -/
inductive Phase where
  | setup
  | run
deriving DecidableEq, Repr

/-- The status of the last command, in the order of its codes (R178). -/
inductive CommandStatus where
  | none | accepted | refused | wrongPhase | badSite | unknown
deriving DecidableEq, Repr

/-- The attention flags, and their enables (R185). -/
structure Attention where
  error : Bool
  lineDown : Bool
  colourHold : Bool
deriving DecidableEq, Repr

/-- The sticky flags of the error report (R184). -/
structure ErrorReport where
  stalledA : Bool
  stalledB : Bool
  stalledDesk : Bool
  configRefused : Bool
  dramUncorrectable : Bool
  lostA : Bool
  lostB : Bool
  lostDesk : Bool
deriving DecidableEq, Repr

/-- The registers of the window that production events do not write: phase and status (0x010), refused item (0x012), attention
enables (0x022), and the word the last modelled read returned. -/
structure ServiceRegs where
  phase : Phase
  status : CommandStatus
  refusedItem : Nat
  enables : Attention
  readData : Word
deriving DecidableEq, Repr

/-- The configuration words, indexed by `ConfigItem.index` in Machine/Operands.lean (R179). -/
abbrev ConfigWords := Vector Word 35

/-! ### Ports (chapter 9) -/

/-- The state of a port's input (R165, R172). -/
inductive PortState where
  | idle
  | synced
  | stalled
deriving DecidableEq, Repr

/-- Lane order of a title port (R167). -/
inductive ByteOrder where
  | high
  | low
deriving DecidableEq, Repr

/-- The causes of STALLED in the order of their codes (R187). -/
inductive PortCause where
  | strayByte | unknownType | badLength | badCrc | framing
deriving DecidableEq, Repr

/-- The byte assembler of a port: port state, a 0xC3 held to be judged with the next byte, and the message store (R165, R168). -/
structure Assembler where
  state : PortState
  c3Held : Bool
  store : List Byte
  complete : Bool
deriving DecidableEq, Repr

/-- Where the assembler stands (R165): read from the port state and the message store. -/
inductive Position where
  | hunting
  | between
  | within (count : Nat)
deriving DecidableEq, Repr

/-- The inbound side of a title port (R165, R166). `lane` counts the bytes already taken of the word at the head of the buffer. -/
structure TitlePort where
  asm : Assembler
  buffer : List Word
  lane : Nat
  byteOrder : ByteOrder
  resyncIn : Bool
deriving DecidableEq, Repr

/-- The inbound side of the Desk Port (R172). -/
structure DeskPort where
  asm : Assembler
  baud : Nat
deriving DecidableEq, Repr

/-! ### Release Table (chapter 1) -/

inductive Colour where
  | mono
  | process
deriving DecidableEq, Repr

/-- Page states (R2). -/
inductive PageState where
  | opened
  | live
  | killed
deriving DecidableEq, Repr

inductive CandidateState where
  | collecting
  | complete
deriving DecidableEq, Repr

/-- One optional image reference (an image id) for each separation (R1). -/
structure ImageRefs where
  c : Option Nat
  m : Option Nat
  y : Option Nat
  k : Option Nat
deriving DecidableEq, Repr

/-- The released version record (R1). -/
structure Released where
  version : Nat
  images : ImageRefs
  mask : SiteSet
  slot : SlotNo
  generation : Nat
  resupply : SepSet
deriving DecidableEq, Repr

/-- The candidate record (R1, R5). -/
structure Candidate where
  version : Nat
  images : ImageRefs
  state : CandidateState
  approved : Bool
deriving DecidableEq, Repr

/-- What a page record keeps for one site (R1, R21). -/
structure PageSite where
  held : Nat
  progress : SepSet
deriving DecidableEq, Repr

/-- A page record in use (R1). Its backlog membership is its item in the backlog. -/
structure PageRec where
  key : PageKey
  colour : Colour
  declMask : SiteSet
  declSlot : SlotNo
  state : PageState
  released : Option Released
  candidate : Option Candidate
  sites : Vector PageSite 8
deriving DecidableEq, Repr

/-- Kinds of backlog items, in the order R102 lists them. -/
inductive BacklogKind where
  | withdraw
  | release
  | reseed
deriving DecidableEq, Repr

/-- An item of the release backlog (R102); `carried` is the carried reseed set of R11, empty for the other kinds. -/
structure BacklogItem where
  key : PageKey
  kind : BacklogKind
  sites : SiteSet
  carried : SiteSet
deriving DecidableEq, Repr

/-! ### Submission Parsers (chapter 2) -/

inductive ParserState where
  | idle
  | opened
  | discard
deriving DecidableEq, Repr

/-- How the Release Table accepted an IMAGE_BEGIN (R6, R29). -/
inductive Acceptance where
  | new
  | fill
  | resupply
deriving DecidableEq, Repr

/-- The image open on a parser (R29). -/
structure OpenImage where
  image : Nat
  key : PageKey
  sep : Sep
  version : Nat
deriving DecidableEq, Repr

/-- The SUBMIT_RESULT held while DISCARD lasts (R29); the key, separation and version as the message carried them. -/
structure PendingResult where
  result : Result
  key : PageKey
  sepCode : Nat
  version : Nat
  bands : Nat
  bytes : Nat
deriving DecidableEq, Repr

/-- A Submission Parser (R29). `crc` is the CRC-32 register before the final inversion (R190). -/
structure Parser where
  state : ParserState
  image : Option OpenImage
  acceptance : Option Acceptance
  declaredBands : Nat
  declaredBytes : Nat
  bandCounter : Nat
  byteCount : Nat
  crc : Word
  storing : Bool
  result : Option PendingResult
deriving DecidableEq, Repr

/-! ### Image Store (chapter 3) -/

inductive ImageState where
  | filling
  | overrun
  | sealed
  | damaged
deriving DecidableEq, Repr

/-- An image record in use (R50). -/
structure ImageRec where
  id : Nat
  key : PageKey
  sep : Sep
  version : Nat
  bandCount : Nat
  bytesStored : Nat
  bandsStored : Nat
  head : Option Nat
  tail : Option Nat
  extentsHeld : Nat
  state : ImageState
  count : Nat
deriving DecidableEq, Repr

/-- The descriptor of a held extent (R53); a free extent has none. -/
structure Extent where
  number : Nat
  holder : Nat
  next : Option Nat
  used : Nat
  firstBand : Nat
deriving DecidableEq, Repr

/-! ### Edition Unit (chapter 4) -/

inductive EditionState where
  | opened
  | closed
  | retiring
deriving DecidableEq, Repr

/-- Edition-site states (R66). -/
inductive SiteState where
  | waiting
  | ready
  | late
  | running
  | closed
deriving DecidableEq, Repr

/-- What an edition record keeps for a site of its site set (R65). -/
structure EditionSite where
  pressStart : Nat
  cutoff : Nat
  pageCount : Nat
  delivered : Nat
  state : SiteState
  lateMark : Bool
deriving DecidableEq, Repr

/-- An edition record in use (R65); the site set is the sites that have a record. -/
structure EditionRec where
  title : Title
  code : Nat
  state : EditionState
  hold : Bool
  sites : Vector (Option EditionSite) 8
deriving DecidableEq, Repr

/-- The edition clock (R69). -/
structure Clock where
  set : Bool
  value : Nat
deriving DecidableEq, Repr

/-- An armed cut-off on the deadline list (R71); `order` counts the armings, for equal cut-offs. -/
structure Deadline where
  title : Title
  code : Nat
  site : Site
  cutoff : Nat
  order : Nat
deriving DecidableEq, Repr

/-! ### Colour Target Store (chapter 5) -/

/-- A patch of a target (R82). -/
structure Patch where
  sep : Sep
  tint : Nat
  aim : Nat
  tolerance : Nat
deriving DecidableEq, Repr

/-- A target slot (R82). -/
structure TargetSlot where
  generation : Nat
  name : List Byte
  patches : List Patch
  loader : Option Title
deriving DecidableEq, Repr

/-- A colour check record (R92); a worst deviation of `none` is NO_READING. -/
structure CheckRec where
  outCount : Nat
  hold : Bool
  holdGeneration : Nat
  lastWorst : Option Nat
  sessionWorst : Option Nat
  sumSquares : Nat
  readings : Nat
deriving DecidableEq, Repr

/-! ### Dispatch Scheduler (chapter 6) -/

inductive EntryKind where
  | plate
  | target
  | withdraw
deriving DecidableEq, Repr

/-- Entry states in the order R111 lists them. -/
inductive EntryState where
  | queued
  | gated
  | active
  | confirming
  | aborting
deriving DecidableEq, Repr

/-- Abort causes in the order R111 lists them. -/
inductive AbortCause where
  | superseded
  | killed
  | closed
  | reloaded
  | damaged
deriving DecidableEq, Repr

/-- The gate set of an entry (R111, R117). -/
structure Gates where
  target : Bool
  hold : Bool
  colour : Bool
  resupply : Bool
deriving DecidableEq, Repr

/-- A dispatch record in use (R111). A field that is not of the entry's kind is absent, or 0 or clear where it is a count or a
flag. -/
structure Entry where
  number : Nat
  kind : EntryKind
  site : Site
  key : Option PageKey
  sep : Option Sep
  version : Nat
  image : Option Nat
  slot : Option SlotNo
  generation : Nat
  deadline : Option Nat
  late : Bool
  state : EntryState
  gates : Gates
  acked : Nat
  refusals : Nat
  cause : Option AbortCause
  seq : Nat
deriving DecidableEq, Repr

/-! ### Line Engines (chapter 7) -/

inductive TransferState where
  | idle
  | opening
  | sending
  | draining
  | confirming
  | aborting
deriving DecidableEq, Repr

/-- What becomes of a band read's answer (R134): used; asked before a go-back of its transfer, so that only DAMAGED is acted on (log 48);
or dropped. -/
inductive ReadUse where
  | live
  | wentBack
  | dropped
deriving DecidableEq, Repr

/-- A band read asked and not answered (R134). -/
structure BandRead where
  image : Nat
  band : Nat
  use : ReadUse
deriving DecidableEq, Repr

/-- An outbound frame, with the transfer tag it belongs to (R131, R132, R134, R144, R189). -/
inductive OutFrame where
  | plateOpen (tag : Nat) (key : PageKey) (sep : Sep) (version : Nat) (slot : SlotNo) (generation bands bytes : Nat)
      (replace : Bool) (resume : Nat)
  | band (tag index : Nat) (payload : List Byte)
  | plateAbort (tag : Nat) (key : PageKey) (sep : Sep) (version : Nat)
  | targetSet (tag : Nat) (slot : SlotNo) (generation : Nat) (name : List Byte) (patches : List Patch)
  | pageWithdraw (tag : Nat) (key : PageKey) (version : Nat)
deriving DecidableEq, Repr

/-- A Line Engine (R127). A running timer holds the duration in seconds it was started with. -/
structure Engine where
  state : TransferState
  current : Option Nat
  counter : Nat
  tag : Nat
  nextBand : Nat
  sentMark : Nat
  readOutstanding : Option Nat
  expiry : Nat
  tAck : Option Nat
  tConf : Option Nat
  lineFailures : Nat
  strayFrames : Nat
  reads : List BandRead
  tx : List OutFrame
  lineOut : List Word
deriving DecidableEq, Repr

/-! ### Line Qualifiers (chapter 8) -/

inductive Level where
  | down
  | training
  | up
  | degraded
deriving DecidableEq, Repr

inductive Checker where
  | off
  | search
  | locked
  | measure
deriving DecidableEq, Repr

/-- The result of a training attempt, in the order R149 lists them. -/
inductive Verdict where
  | none
  | up
  | degraded
  | noLock
  | stuck
  | errors
deriving DecidableEq, Repr

/-- A last verdict with its measured error count (R149). -/
structure LastVerdict where
  verdict : Verdict
  errors : Nat
deriving DecidableEq, Repr

/-- Causes of training, and of line failures, in the order R150 lists them. -/
inductive TrainingCause where
  | start
  | retryTimer
  | lineRetry
  | expiry
  | protocol
  | frameErrors
  | framing
  | siteRestart
  | lineReset
deriving DecidableEq, Repr

/-- The five counters a qualifier keeps (R163). -/
structure LineCounters where
  words : Nat
  errors : Nat
  lockLosses : Nat
  attempts : Nat
  badFrames : Nat
deriving DecidableEq, Repr

/-- The snapshot CAPTURE takes (R164). -/
structure Snapshot where
  counters : LineCounters
  lineFailures : Nat
  strayFrames : Nat
  level : Level
  attempt : Nat
  verdict : LastVerdict
deriving DecidableEq, Repr

/-- The receiver of a line in service (R158, R189, log 49): the words of a frame begun, from its header word on, in the order they came;
and, outside a frame, the word positions in a row that held neither the idle word nor a sync word. -/
structure Receiver where
  inFrame : Bool
  frame : List Word
  lost : List (Option Word)
deriving DecidableEq, Repr

/-- A Line Qualifier (R149). `gen` is the checker's generator, `lastWord` the word received before, `txGen`, `txPos` and `txCrc` the
transmitter's generator and its place in the TRAIN frame. -/
structure Qualifier where
  level : Level
  attempt : Nat
  checker : Checker
  periods : Nat
  matchRun : Nat
  confirm : Nat
  identical : Nat
  verdict : LastVerdict
  retrainPending : Bool
  tRetry : Option Nat
  windowFrames : Nat
  windowBad : Nat
  counters : LineCounters
  snapshot : Snapshot
  gen : Option (BitVec 31)
  lastWord : Option Word
  txGen : BitVec 31
  txPos : Nat
  txCrc : BitVec 16
  lineRate : Nat
  receiver : Receiver
deriving DecidableEq, Repr

/-- The service counters of a site that no line reset clears (R186). -/
structure SiteCounters where
  strayPressRuns : Nat
  strayTargets : Nat
  staleMeasures : Nat
  latePlates : Nat
deriving DecidableEq, Repr

/-! ### Notices (chapter 9) -/

/-- Causes of COLOUR_CLEARED in the order R98 lists them. -/
inductive ClearCause where
  | desk
  | targetHeld
  | siteRestart
deriving DecidableEq, Repr

/-- Reasons of PLATE_REFUSED, with their line codes 1, 2, 3 (R189). -/
inductive RefuseReason where
  | targetMissing
  | unreadable
  | editionUnknown
deriving DecidableEq, Repr

/-- The notices in the order of their types 0x80 to 0x9A (R188). Fields are in the order the appending rules name them; edition, page,
version and separation codes of refused messages are kept as they were carried. The `title` of a `late` is present on the desk's
copy only (R72); a `submitResult` without a key is a PROTOCOL result, all zero (R31). -/
inductive Notice where
  | declareResult (key : PageKey) (result : Result)
  | editionDeclareResult (edition : Nat) (result : Result)
  | submitResult (key : Option PageKey) (sepCode version : Nat) (result : Result) (bands bytes : Nat)
  | candidateReplaced (key : PageKey) (old new : Nat)
  | released (key : PageKey) (version : Nat) (mask : SiteSet)
  | killed (key : PageKey)
  | delivered (key : PageKey) (site : Site) (version : Nat)
  | resupplyNeeded (key : PageKey) (sep : Sep) (version : Nat)
  | strayPlate (site : Site) (key : PageKey) (sep : Sep) (version : Nat)
  | late (title : Option Title) (edition : Nat) (site : Site) (cutoff : Nat)
  | ready (edition : Nat) (site : Site) (lateMark : Bool)
  | readyLost (edition : Nat) (site : Site)
  | pressRun (edition : Nat) (site : Site) (lateMark : Bool)
  | holdState (edition : Option Nat) (set : Bool)
  | closed (edition : Nat) (sites : SiteSet)
  | retireResult (result : Result)
  | editionFreed (edition : Nat)
  | targetResult (slotCode generation : Nat) (result : Result)
  | targetLoaded (slot : SlotNo) (generation : Nat) (name : List Byte) (loader : Title) (sites : SiteSet)
  | colourHold (site : Site) (slot : SlotNo) (generation outCount : Nat) (worst : Option Nat)
  | colourCleared (site : Site) (slot : SlotNo) (cause : ClearCause)
  | plateRefused (site : Site) (key : PageKey) (sep : Sep) (version : Nat) (reason : RefuseReason)
  | siteRestart (site : Site)
  | lineTraining (site : Site) (cause : TrainingCause)
  | lineInService (site : Site) (degraded : Bool) (attempt errors : Nat)
  | lineDown (site : Site) (verdict : LastVerdict)
  | portError (cause : PortCause)
  | portResynced
  | queryReply (queryType tag : Byte) (result : Result) (data : List Byte)
  | reply (commandType tag : Byte) (result : Result) (data : List Byte)
deriving DecidableEq, Repr

/-- A record of a notice queue with its LOST mark (R173, R174). -/
structure NoticeRec where
  notice : Notice
  lost : Bool
deriving DecidableEq, Repr

/-- The outbound side of a port (R165, R173, R174). `sent` counts the bytes of the head record that have gone; `outWord` holds the one
to three last bytes of it that wait in a partly filled word; `lastOut` is the word or character sent last. -/
structure Outbox where
  queue : List NoticeRec
  lost : Bool
  sent : Nat
  outWord : List Byte
  lastOut : Word
deriving DecidableEq, Repr

/-- The three outbound sides. -/
structure Outboxes where
  a : Outbox
  b : Outbox
  desk : Outbox
deriving DecidableEq, Repr

/-! ### The state -/

/-- The working state of the blocks between the ports and the lines: everything the blocks' requests to each other read and write. -/
structure Work where
  errors : ErrorReport
  attention : Attention
  corrected : Nat
  uncorrectable : Nat
  out : Outboxes
  parsers : PerTitle Parser
  pages : List PageRec
  backlog : List BacklogItem
  images : List ImageRec
  extents : List Extent
  extentCount : Nat
  freeExtents : Nat
  used : PerTitle Nat
  quota : PerTitle Nat
  scrubPos : Nat
  editions : List EditionRec
  titleHold : PerTitle Bool
  clock : Clock
  deadlines : List Deadline
  armCounter : Nat
  slots : Vector TargetSlot 32
  holdings : Vector (Vector Nat 32) 8
  checks : Vector (Vector CheckRec 32) 8
  entries : List Entry
  insertion : Nat
  arbiters : Vector (Option Title) 8
  wants : List (Site × SlotNo)
  engines : Vector Engine 8
  quals : Vector Qualifier 8
  siteCounters : Vector SiteCounters 8
deriving DecidableEq, Repr

/-- The machine: service registers and configuration, the ports' inbound sides, the DRAM, the blocks' working state, and the commands
that are waiting, first in first out. -/
structure State where
  svc : ServiceRegs
  config : ConfigWords
  ports : PerTitle TitlePort
  desk : DeskPort
  dram : List Host.Cell
  work : Work
  pending : List Instr
deriving DecidableEq, Repr

/-- No event of the spec stops the part (INVENTORY.md, "Faults"): there is no fault. -/
inductive Fault where
deriving DecidableEq, Repr

/-- Why a command could have no meaning. -/
inductive Refusal where
  /-- Raised by an arm of `exec` whose command has no meaning yet, under the row's mnemonic; safe. No arm raises it in this model. -/
  | notModelled (mnemonic : String)
deriving DecidableEq, Repr

/-! ### Values after reset -/

def Attention.clear : Attention := { error := false, lineDown := false, colourHold := false }

def ErrorReport.clear : ErrorReport :=
  { stalledA := false, stalledB := false, stalledDesk := false, configRefused := false, dramUncorrectable := false,
    lostA := false, lostB := false, lostDesk := false }

/-- R165, R172 after hard reset and soft restart. -/
def Assembler.reset : Assembler := { state := .idle, c3Held := false, store := [], complete := false }

def TitlePort.reset : TitlePort :=
  { asm := .reset, buffer := [], lane := 0, byteOrder := .high, resyncIn := false }

def DeskPort.reset : DeskPort := { asm := .reset, baud := 115200 }

def Outbox.reset : Outbox := { queue := [], lost := false, sent := 0, outWord := [], lastOut := 0 }

/-- R29 after hard reset and soft restart; also the parser in IDLE at any time. -/
def Parser.reset : Parser :=
  { state := .idle, image := none, acceptance := none, declaredBands := 0, declaredBytes := 0, bandCounter := 0, byteCount := 0,
    crc := 0xFFFFFFFF#32, storing := false, result := none }

/-- R82 after hard reset and soft restart: generation 0, a name of four spaces, no patches. -/
def TargetSlot.reset : TargetSlot :=
  { generation := 0, name := [0x20#8, 0x20#8, 0x20#8, 0x20#8], patches := [], loader := none }

/-- A reset colour check record (R92). -/
def CheckRec.reset : CheckRec :=
  { outCount := 0, hold := false, holdGeneration := 0, lastWorst := none, sessionWorst := none, sumSquares := 0, readings := 0 }

/-- R127 after hard reset and soft restart; a frame in transmission is cut off (log 58). -/
def Engine.reset : Engine :=
  { state := .idle, current := none, counter := 0, tag := 0, nextBand := 0, sentMark := 0, readOutstanding := none, expiry := 0,
    tAck := none, tConf := none, lineFailures := 0, strayFrames := 0, reads := [], tx := [], lineOut := [] }

def LineCounters.zero : LineCounters := { words := 0, errors := 0, lockLosses := 0, attempts := 0, badFrames := 0 }

def LastVerdict.none : LastVerdict := { verdict := .none, errors := 0 }

/-- R164 after hard reset and soft restart. -/
def Snapshot.reset : Snapshot :=
  { counters := .zero, lineFailures := 0, strayFrames := 0, level := .down, attempt := 0, verdict := .none }

/-- The receiver where the in-service watch begins (R156, R158): no frame begun, no position lost. -/
def Receiver.reset : Receiver := { inFrame := false, frame := [], lost := [] }

/-- R149 after hard reset and soft restart, at a line rate. -/
def Qualifier.resetAt (rate : Nat) : Qualifier :=
  { level := .down, attempt := 0, checker := .off, periods := 0, matchRun := 0, confirm := 0, identical := 0, verdict := .none,
    retrainPending := false, tRetry := none, windowFrames := 0, windowBad := 0, counters := .zero, snapshot := .reset,
    gen := none, lastWord := none, txGen := 0x7FFFFFFF#31, txPos := 0, txCrc := 0xFFFF#16, lineRate := rate,
    receiver := .reset }

def SiteCounters.zero : SiteCounters := { strayPressRuns := 0, strayTargets := 0, staleMeasures := 0, latePlates := 0 }

/-- The default words of R179: the 19 part-wide items in address order, then the eight margins, then the eight line rates. -/
def defaultConfig : ConfigWords :=
  #v[1, 1024, 1024, 4, 5, 120, 60, 0, 1048576, 32, 0, 2, 64, 8, 120, 3, 0, 0, 115200,
     30, 30, 30, 30, 30, 30, 30, 30, 2048, 2048, 2048, 2048, 2048, 2048, 2048, 2048]

/-- The working state after a reset that leaves `count` extents, the quotas and the line rates in effect (R183 and the chapters it
cites). -/
def Work.resetWith (count : Nat) (quota : PerTitle Nat) (quals : Vector Qualifier 8) : Work :=
  { errors := .clear, attention := .clear, corrected := 0, uncorrectable := 0,
    out := { a := .reset, b := .reset, desk := .reset },
    parsers := { a := .reset, b := .reset },
    pages := [], backlog := [], images := [], extents := [], extentCount := count, freeExtents := count,
    used := { a := 0, b := 0 }, quota := quota, scrubPos := 0,
    editions := [], titleHold := { a := false, b := false }, clock := { set := false, value := 0 }, deadlines := [],
    armCounter := 0,
    slots := Vector.replicate 32 .reset, holdings := Vector.replicate 8 (Vector.replicate 32 0),
    checks := Vector.replicate 8 (Vector.replicate 32 .reset),
    entries := [], insertion := 0, arbiters := Vector.replicate 8 none, wants := [],
    engines := Vector.replicate 8 .reset, quals := quals, siteCounters := Vector.replicate 8 .zero }

/-- The working state right after hard reset: the extent count is that of the default DRAM size (R64). -/
def Work.reset : Work :=
  Work.resetWith 4096 { a := 1024, b := 1024 } (Vector.replicate 8 (Qualifier.resetAt 2048))

/-- The machine right after hard reset (R181 and the chapters): SETUP, the default configuration, every table and queue empty. -/
def State.reset : State :=
  { svc := { phase := .setup, status := .none, refusedItem := 0, enables := .clear, readData := 0 },
    config := defaultConfig,
    ports := { a := .reset, b := .reset }, desk := .reset, dram := [], work := .reset, pending := [] }

end Sys2Proof.Machine
end

