-- ==== Sys2Proof/Machine/Ops.lean ====
section
/-! DEFINITION. The named operations every block's rules use: reading and updating tables, the DRAM as addressed bytes, saturating
counters, appending notices and raising service flags. -/

namespace Sys2Proof

/-- The index of a separation (R187). -/
def Sep.index : Sep → Nat
  | .c => 0
  | .m => 1
  | .y => 2
  | .k => 3

/-- The code of a title (R187). -/
def Title.code : Title → Nat
  | .a => 1
  | .b => 2

/-- The name code of a TARGET_LOAD (R188). -/
def LoadMsg.name (m : LoadMsg) : List Byte := [m.name0, m.name1, m.name2, m.name3]

end Sys2Proof

namespace Sys2Proof.Machine

/-! ### Tables -/

/-- The entry of a table of fixed size. -/
def tget {α : Type} {n : Nat} (v : Vector α n) (i : Fin n) : α := v[i.val]'i.isLt

/-- The table with one entry replaced. -/
def tput {α : Type} {n : Nat} (v : Vector α n) (i : Fin n) (x : α) : Vector α n := v.set i.val x i.isLt

/-- The table with one entry changed. -/
def tmod {α : Type} {n : Nat} (v : Vector α n) (i : Fin n) (f : α → α) : Vector α n := tput v i (f (tget v i))

def PerTitle.get {α : Type} (p : PerTitle α) : Title → α
  | .a => p.a
  | .b => p.b

def PerTitle.put {α : Type} (p : PerTitle α) (t : Title) (x : α) : PerTitle α :=
  match t with
  | .a => { p with a := x }
  | .b => { p with b := x }

/-! ### Sets of sites and separations -/

/-- The site is in the mask. -/
def SiteSet.has (m : SiteSet) (s : Site) : Bool := m.getLsbD s.val

/-- The mask of one site. -/
def SiteSet.one (s : Site) : SiteSet := 1#8 <<< s.val

/-- The sites of the first mask that are not in the second. -/
def SiteSet.less (m n : SiteSet) : SiteSet := m &&& ~~~n

/-- The mask of the sites that satisfy a condition. -/
def SiteSet.ofPred (p : Site → Bool) : SiteSet :=
  allSites.foldl (fun m s => if p s then m ||| SiteSet.one s else m) 0#8

/-- The sites of a mask in site order. -/
def SiteSet.toList (m : SiteSet) : List Site := allSites.filter (fun s => SiteSet.has m s)

/-- The number of sites in a mask (00_scope.md, "its count"). -/
def SiteSet.count (m : SiteSet) : Nat := (SiteSet.toList m).length

def SepSet.one (p : Sep) : SepSet := 1#4 <<< p.index

def SepSet.has (m : SepSet) (p : Sep) : Bool := m.getLsbD p.index

def SepSet.without (m : SepSet) (p : Sep) : SepSet := m &&& ~~~(SepSet.one p)

/-- The separations a colour requires, in the order C, M, Y, K (R1). -/
def Colour.seps : Colour → List Sep
  | .mono => [.k]
  | .process => allSeps

def Colour.sepSet : Colour → SepSet
  | .mono => 0b1000#4
  | .process => 0b1111#4

def ImageRefs.none : ImageRefs := { c := Option.none, m := Option.none, y := Option.none, k := Option.none }

def ImageRefs.get (r : ImageRefs) : Sep → Option Nat
  | .c => r.c
  | .m => r.m
  | .y => r.y
  | .k => r.k

def ImageRefs.put (r : ImageRefs) (p : Sep) (x : Option Nat) : ImageRefs :=
  match p with
  | .c => { r with c := x }
  | .m => { r with m := x }
  | .y => { r with y := x }
  | .k => { r with k := x }

/-- The images a record names, in separation order. -/
def ImageRefs.toList (r : ImageRefs) : List Nat := allSeps.filterMap r.get

/-- The separations that have an image reference. -/
def ImageRefs.sepSet (r : ImageRefs) : SepSet :=
  allSeps.foldl (fun m p => if (r.get p).isSome then m ||| SepSet.one p else m) 0#4

/-! ### Counters -/

/-- The largest value of a 32-bit counter. -/
def max32 : Nat := 4294967295

/-- A sum that saturates at a largest value. -/
def satAdd (limit a b : Nat) : Nat := min limit (a + b)

/-- A 32-bit counter raised by 1, saturating (R186). -/
def bump (n : Nat) : Nat := satAdd max32 n 1

/-! ### The DRAM (R53, R54, R60) -/

/-- Bytes of an extent: 256 KiB. -/
def extentBytes : Nat := 262144

/-- What a byte of the DRAM that nothing has written reads as (log 2). -/
def unwrittenByte : Byte := 0#8

/-- The byte at an address. -/
def readByte : List Host.Cell → Nat → Byte
  | [], _ => unwrittenByte
  | (k, v) :: rest, a => if k = a then v else readByte rest a

/-- The bytes of a range, lowest address first. -/
def readBytes (m : List Host.Cell) (a : Nat) : Nat → List Byte
  | 0 => []
  | n + 1 => readByte m a :: readBytes m (a + 1) n

/-- The cells that list a block of bytes from an address on. -/
def blockCells (a : Nat) : List Byte → List Host.Cell
  | [] => []
  | b :: bs => if b = unwrittenByte then blockCells (a + 1) bs else (a, b) :: blockCells (a + 1) bs

/-- A block of bytes written from an address on; every other byte keeps its value, and the canonical form is kept. -/
def writeBlock (m : List Host.Cell) (a : Nat) (bs : List Byte) : List Host.Cell :=
  m.filter (fun c => Nat.blt c.1 a) ++ (blockCells a bs ++ m.filter (fun c => Nat.ble (a + bs.length) c.1))

/-- The canonical form above a lowest address: addresses strictly rising, no byte listed that an unlisted address reads as. -/
def Memory.wfFrom (lo : Nat) : List Host.Cell → Bool
  | [] => true
  | (k, v) :: rest => Nat.ble lo k && (v != unwrittenByte) && Memory.wfFrom (k + 1) rest

/-- The canonical form of a memory. -/
def Memory.wf (m : List Host.Cell) : Bool := Memory.wfFrom 0 m

/-! ### Notices and service flags -/

/-- A set of the error report's flags also raises the error attention flag (R184). -/
def Work.raiseError (f : ErrorReport → ErrorReport) (w : Work) : Work :=
  { w with errors := f w.errors, attention := { w.attention with error := true } }

def Work.outOf (w : Work) : PortId → Outbox
  | .title .a => w.out.a
  | .title .b => w.out.b
  | .desk => w.out.desk

def Work.setOut (p : PortId) (o : Outbox) (w : Work) : Work :=
  match p with
  | .title .a => { w with out := { w.out with a := o } }
  | .title .b => { w with out := { w.out with b := o } }
  | .desk => { w with out := { w.out with desk := o } }

/-- The NOTICE_LOST flag of a port (R184). -/
def ErrorReport.setLost (p : PortId) (e : ErrorReport) : ErrorReport :=
  match p with
  | .title .a => { e with lostA := true }
  | .title .b => { e with lostB := true }
  | .desk => { e with lostDesk := true }

/-- The PORT_STALLED flag of a port (R184). -/
def ErrorReport.setStalled (p : PortId) (e : ErrorReport) : ErrorReport :=
  match p with
  | .title .a => { e with stalledA := true }
  | .title .b => { e with stalledB := true }
  | .desk => { e with stalledDesk := true }

/-- The most records a notice queue holds (R173). -/
def noticeLimit : Nat := 64

/-- A record appended to a port's notice queue, or dropped when the queue holds 64 (R173, R174). -/
def Work.notify (p : PortId) (n : Notice) (w : Work) : Work :=
  let o := w.outOf p
  if o.queue.length < noticeLimit then
    w.setOut p { o with queue := o.queue ++ [{ notice := n, lost := o.lost }], lost := false }
  else
    (w.setOut p { o with lost := true }).raiseError (ErrorReport.setLost p)

/-- A notice to a title's port. -/
def Work.toTitle (t : Title) (n : Notice) (w : Work) : Work := w.notify (.title t) n

/-- An alert to the desk. -/
def Work.toDesk (n : Notice) (w : Work) : Work := w.notify .desk n

/-! ### Updates of one line's or one site's record -/

def Work.engine (w : Work) (s : Site) : Engine := tget w.engines s

def Work.setEngine (s : Site) (e : Engine) (w : Work) : Work := { w with engines := tput w.engines s e }

def Work.modEngine (s : Site) (f : Engine → Engine) (w : Work) : Work := w.setEngine s (f (w.engine s))

def Work.qual (w : Work) (s : Site) : Qualifier := tget w.quals s

def Work.setQual (s : Site) (q : Qualifier) (w : Work) : Work := { w with quals := tput w.quals s q }

def Work.modQual (s : Site) (f : Qualifier → Qualifier) (w : Work) : Work := w.setQual s (f (w.qual s))

def Work.modSiteCounters (s : Site) (f : SiteCounters → SiteCounters) (w : Work) : Work :=
  { w with siteCounters := tmod w.siteCounters s f }

def Work.parser (w : Work) (t : Title) : Parser := w.parsers.get t

def Work.setParser (t : Title) (p : Parser) (w : Work) : Work := { w with parsers := w.parsers.put t p }

/-- A fold that changes the working state for each element of a list in turn. -/
def Work.each {α : Type} (f : α → Work → Work) (xs : List α) (w : Work) : Work := xs.foldl (fun w x => f x w) w

end Sys2Proof.Machine
end

