-- ==== Sys2Proof/Machine/Operands.lean ====
section
/-! DEFINITION. Operand forms: what the bytes of a message or frame name (R187), and the configuration items with their addresses,
ranges and defaults (R178, R179). -/

namespace Sys2Proof.Machine

/-! ### Field encodings (R187) -/

def titleOf (b : Byte) : Option Title :=
  match b.toNat with
  | 1 => some .a
  | 2 => some .b
  | _ => none

/-- The site a byte names, when it is 0 to 7. -/
def siteOf (b : Byte) : Option Site := if h : b.toNat < 8 then some ⟨b.toNat, h⟩ else none

/-- The slot a byte names, when it is 0 to 31. -/
def slotOf (b : Byte) : Option SlotNo := if h : b.toNat < 32 then some ⟨b.toNat, h⟩ else none

def sepOf (n : Nat) : Option Sep :=
  match n with
  | 0 => some .c
  | 1 => some .m
  | 2 => some .y
  | 3 => some .k
  | _ => none

def colourOf (b : Byte) : Option Colour :=
  match b.toNat with
  | 0 => some .mono
  | 1 => some .process
  | _ => none

/-- An edition code in range, 1 to 15. -/
def editionOk (n : Nat) : Bool := Nat.ble 1 n && Nat.ble n 15

/-- A page number in range, 1 to 128. -/
def pageOk (n : Nat) : Bool := Nat.ble 1 n && Nat.ble n 128

/-- The page key three bytes of a desk command name, when every field is in range. -/
def keyOf (title edition page : Byte) : Option PageKey :=
  match titleOf title with
  | some t =>
    if editionOk edition.toNat && pageOk page.toNat then some { title := t, edition := edition.toNat, page := page.toNat } else none
  | none => none

/-- The refusal reason a reason word names (R189): the whole word is the code (log 60). -/
def reasonOf (w : Word) : Option RefuseReason :=
  match w.toNat with
  | 1 => some .targetMissing
  | 2 => some .unreadable
  | 3 => some .editionUnknown
  | _ => none

/-- The number two bytes hold, most significant first. -/
def be16 (hi lo : Byte) : Nat := hi.toNat * 256 + lo.toNat

/-- A name character: an upper-case letter, a digit or a space (R82). -/
def nameCharOk (b : Byte) : Bool :=
  let n := b.toNat
  n == 0x20 || (Nat.ble 0x30 n && Nat.ble n 0x39) || (Nat.ble 0x41 n && Nat.ble n 0x5A)

/-- The patches of a TARGET_LOAD's patch records, six bytes each, when the bytes are whole records with every field in range (R84,
R188). -/
def patchesOf : List Byte → Option (List Patch)
  | [] => some []
  | p :: t :: a1 :: a0 :: l1 :: l0 :: rest =>
    match sepOf p.toNat, patchesOf rest with
    | some sep, some more =>
      if Nat.ble t.toNat 100 && Nat.ble (be16 a1 a0) 4000 && Nat.ble 1 (be16 l1 l0) && Nat.ble (be16 l1 l0) 500 then
        some ({ sep := sep, tint := t.toNat, aim := be16 a1 a0, tolerance := be16 l1 l0 } :: more)
      else none
    | _, _ => none
  | _ => none

/-- The patch list of a TARGET_LOAD that passes check 2 of R84. -/
def loadPatches (m : LoadMsg) : Option (List Patch) :=
  if Nat.ble 1 m.patchCount.toNat && Nat.ble m.patchCount.toNat 24 && (m.records.length == 6 * m.patchCount.toNat)
      && m.name.all nameCharOk then
    patchesOf m.records
  else none

/-! ### Configuration items (R179) -/

inductive ConfigItem where
  | dramSize | quotaA | quotaB | window | tAck | tConf | tRetry | limitSelection | wordLimit | errorLimit | preload | tUp | tDeg
  | frameThreshold | tieWindow | outLimit | byteOrderA | byteOrderB | baud
  | margin (s : Site)
  | lineRate (s : Site)
deriving DecidableEq, Repr

/-- Where an item's word stands in the configuration. -/
def ConfigItem.index : ConfigItem → Fin 35
  | .dramSize => 0 | .quotaA => 1 | .quotaB => 2 | .window => 3 | .tAck => 4 | .tConf => 5 | .tRetry => 6
  | .limitSelection => 7 | .wordLimit => 8 | .errorLimit => 9 | .preload => 10 | .tUp => 11 | .tDeg => 12
  | .frameThreshold => 13 | .tieWindow => 14 | .outLimit => 15 | .byteOrderA => 16 | .byteOrderB => 17 | .baud => 18
  | .margin s => ⟨19 + s.val, Nat.lt_of_lt_of_le (Nat.add_lt_add_left s.isLt 19) (by decide)⟩
  | .lineRate s => ⟨27 + s.val, Nat.add_lt_add_left s.isLt 27⟩

/-- The word address of an item. -/
def ConfigItem.addr : ConfigItem → Nat
  | .dramSize => 0x040 | .quotaA => 0x041 | .quotaB => 0x042 | .window => 0x043 | .tAck => 0x044 | .tConf => 0x045
  | .tRetry => 0x046 | .limitSelection => 0x047 | .wordLimit => 0x048 | .errorLimit => 0x049 | .preload => 0x04A
  | .tUp => 0x04B | .tDeg => 0x04C | .frameThreshold => 0x04D | .tieWindow => 0x04E | .outLimit => 0x04F
  | .byteOrderA => 0x058 | .byteOrderB => 0x059 | .baud => 0x05A
  | .margin s => 0x060 + 2 * s.val
  | .lineRate s => 0x061 + 2 * s.val

/-- The item's range; the word limit is a power of two, a line rate a multiple of 64. -/
def ConfigItem.inRange (v : Nat) : ConfigItem → Bool
  | .dramSize => v == 1 || v == 2 || v == 4
  | .quotaA | .quotaB => Nat.ble v 16384
  | .window => Nat.ble 1 v && Nat.ble v 8
  | .tAck => Nat.ble 1 v && Nat.ble v 60
  | .tConf | .tRetry => Nat.ble 10 v && Nat.ble v 600
  | .limitSelection | .byteOrderA | .byteOrderB => Nat.ble v 1
  | .wordLimit => [65536, 131072, 262144, 524288, 1048576, 2097152, 4194304, 8388608, 16777216].contains v
  | .errorLimit => Nat.ble 1 v && Nat.ble v 255
  | .preload => Nat.ble v 255
  | .tUp | .tDeg => Nat.ble v 65535
  | .frameThreshold => Nat.ble 1 v && Nat.ble v 64
  | .tieWindow => Nat.ble v 900
  | .outLimit => Nat.ble 1 v && Nat.ble v 7
  | .baud => Nat.ble 9600 v && Nat.ble v 921600
  | .margin _ => Nat.ble v 240
  | .lineRate _ => Nat.ble 64 v && Nat.ble v 16384 && v % 64 == 0

/-- The item may be written in RUN. -/
def ConfigItem.writable : ConfigItem → Bool
  | .window | .tAck | .tConf | .tRetry | .tUp | .tDeg | .frameThreshold | .tieWindow | .outLimit => true
  | .dramSize | .quotaA | .quotaB | .limitSelection | .wordLimit | .errorLimit | .preload | .byteOrderA | .byteOrderB | .baud
  | .margin _ | .lineRate _ => false

/-- Every item in address order. -/
def ConfigItem.all : List ConfigItem :=
  [.dramSize, .quotaA, .quotaB, .window, .tAck, .tConf, .tRetry, .limitSelection, .wordLimit, .errorLimit, .preload, .tUp, .tDeg,
    .frameThreshold, .tieWindow, .outLimit, .byteOrderA, .byteOrderB, .baud]
    ++ allSites.flatMap (fun s => [.margin s, .lineRate s])

/-- The item at a word address. -/
def ConfigItem.ofAddr (a : Nat) : Option ConfigItem := ConfigItem.all.find? (fun i => i.addr == a)

/-- The value of an item's word. -/
def cfg (c : ConfigWords) (i : ConfigItem) : Nat := (tget c i.index).toNat

/-- The configuration with one item's word replaced whole (R178). -/
def setCfg (c : ConfigWords) (i : ConfigItem) (v : Word) : ConfigWords := tput c i.index v

/-- Extents of a DRAM of `gib` GiB (R53). -/
def extentsOf (gib : Nat) : Nat := 4096 * gib

/-- The addresses START charges with a failure (R182). -/
def startFailures (c : ConfigWords) : List Nat :=
  (ConfigItem.all.filter (fun i => !ConfigItem.inRange (cfg c i) i)).map ConfigItem.addr
    ++ (if cfg c .tUp ≤ cfg c .tDeg then [] else [ConfigItem.addr .tDeg])
    ++ (if cfg c .quotaA + cfg c .quotaB ≤ extentsOf (cfg c .dramSize) then [] else [ConfigItem.addr .quotaA])

/-- The smaller of an address and the smallest so far. -/
def lowerAddr (best : Option Nat) (a : Nat) : Option Nat :=
  match best with
  | none => some a
  | some b => some (min a b)

/-- The refused item: the lowest address charged with a failure, or none when every check passes (R182). -/
def refusedItem (c : ConfigWords) : Option Nat := (startFailures c).foldl lowerAddr none

/-- A configuration START accepts (R182). -/
def configValid (c : ConfigWords) : Bool := (startFailures c).isEmpty

/-- A write in RUN is taken: the item is writable, the value in range, and T_up and T_deg stay in order (R180). -/
def runWriteOk (c : ConfigWords) (i : ConfigItem) (v : Nat) : Bool :=
  i.writable && i.inRange v
    && (match i with
        | .tUp => Nat.ble v (cfg c .tDeg)
        | .tDeg => Nat.ble (cfg c .tUp) v
        | _ => true)

/-- The byte order a configuration word holds (R178). -/
def byteOrderOf (v : Nat) : ByteOrder := if v == 0 then .high else .low

end Sys2Proof.Machine
end

