-- ==== Sys2Proof/Machine/EditionUnit.lean ====
section
/-! DEFINITION. The Edition Unit (chapter 4): edition records, the clock, the deadline list, readiness. -/

namespace Sys2Proof.Machine

/-- Edition records (R65). -/
def editionLimit : Nat := 8

def EditionRec.is (t : Title) (code : Nat) (r : EditionRec) : Bool := r.title == t && r.code == code

def Work.findEdition (w : Work) (t : Title) (code : Nat) : Option EditionRec := w.editions.find? (EditionRec.is t code)

def Work.modEdition (t : Title) (code : Nat) (f : EditionRec → EditionRec) (w : Work) : Work :=
  { w with editions := w.editions.map (fun r => if r.is t code then f r else r) }

/-- The edition-site, when the site is in the edition's site set. -/
def Work.editionSite (w : Work) (t : Title) (code : Nat) (s : Site) : Option EditionSite :=
  match w.findEdition t code with
  | none => none
  | some r => tget r.sites s

def Work.setEditionSite (t : Title) (code : Nat) (s : Site) (x : Option EditionSite) (w : Work) : Work :=
  w.modEdition t code (fun r => { r with sites := tput r.sites s x })

def Work.modEditionSite (t : Title) (code : Nat) (s : Site) (f : EditionSite → EditionSite) (w : Work) : Work :=
  w.modEdition t code (fun r => { r with sites := tmod r.sites s (fun x => x.map f) })

/-- The site set of an edition (R65). -/
def EditionRec.siteSet (r : EditionRec) : SiteSet := SiteSet.ofPred (fun s => (tget r.sites s).isSome)

def EditionRec.siteIs (r : EditionRec) (st : SiteState) (s : Site) : Bool :=
  match tget r.sites s with
  | some x => x.state == st
  | none => false

/-- The sites at which an edition is CLOSED; none when it has no record. -/
def Work.closedSites (w : Work) (t : Title) (code : Nat) : SiteSet :=
  match w.findEdition t code with
  | some r => SiteSet.ofPred (r.siteIs .closed)
  | none => 0#8

/-- The edition's state, when it has a record. -/
def Work.editionState (w : Work) (t : Title) (code : Nat) : Option EditionState := (w.findEdition t code).map EditionRec.state

/-- A cut-off has passed: the clock is set and above it (R66). -/
def Work.cutoffPassed (w : Work) (cutoff : Nat) : Bool := w.clock.set && Nat.blt cutoff w.clock.value

/-- The deadline list's order: cut-off ascending, then order of arming (R71). -/
def Deadline.before (x y : Deadline) : Bool := Nat.blt x.cutoff y.cutoff || (x.cutoff == y.cutoff && Nat.ble x.order y.order)

def insertDeadline (d : Deadline) : List Deadline → List Deadline
  | [] => [d]
  | x :: xs => if d.before x then d :: x :: xs else x :: insertDeadline d xs

def Deadline.is (t : Title) (code : Nat) (s : Site) (d : Deadline) : Bool := d.title == t && d.code == code && d.site == s

/-- A cut-off taken off the list, if it stands there (R71). -/
def Work.disarm (t : Title) (code : Nat) (s : Site) (w : Work) : Work :=
  { w with deadlines := w.deadlines.filter (fun d => !d.is t code s) }

/-- A PLATE entry of the edition in the site's queue. -/
def Entry.plateOf (t : Title) (code : Nat) (s : Site) (e : Entry) : Bool :=
  e.kind == .plate && e.site == s
    && (match e.key with
        | some k => k.title == t && k.edition == code
        | none => false)

/-- The LATE flag set or cleared on every PLATE entry of the edition in the site's queue, in every state (R115). -/
def Work.setLateFlags (t : Title) (code : Nat) (s : Site) (late : Bool) (w : Work) : Work :=
  { w with entries := w.entries.map (fun e => if e.plateOf t code s then { e with late := late } else e) }

/-- An edition-site becomes LATE: late mark, LATE flags, LATE notices to title and desk (R72, R74). -/
def Work.becomeLate (t : Title) (code : Nat) (s : Site) (w : Work) : Work :=
  match w.editionSite t code s with
  | none => w
  | some x =>
    (((w.modEditionSite t code s (fun x => { x with state := .late, lateMark := true })).setLateFlags t code s true).toTitle t
      (.late none code s x.cutoff)).toDesk (.late (some t) code s x.cutoff)

/-- The expiry of an armed cut-off (R72). -/
def Work.expireCutoff (t : Title) (code : Nat) (s : Site) (w : Work) : Work := (w.disarm t code s).becomeLate t code s

/-- A cut-off armed at its place; one that has already passed expires at once (R71, R72). -/
def Work.arm (t : Title) (code : Nat) (s : Site) (cutoff : Nat) (w : Work) : Work :=
  let armed : Work :=
    { w with
      deadlines := insertDeadline { title := t, code := code, site := s, cutoff := cutoff, order := w.armCounter } w.deadlines
      armCounter := w.armCounter + 1 }
  if w.cutoffPassed cutoff then armed.expireCutoff t code s else armed

/-- The item of a WAITING edition-site moved to the place its new cut-off gives; a passed one expires at once (R68, R71). -/
def Work.moveDeadline (t : Title) (code : Nat) (s : Site) (cutoff : Nat) (w : Work) : Work :=
  let moved : Work :=
    { w with
      deadlines := (w.deadlines.filter (Deadline.is t code s)).foldl (fun ds d => insertDeadline { d with cutoff := cutoff } ds)
        (w.deadlines.filter (fun d => !d.is t code s)) }
  if w.cutoffPassed cutoff then moved.expireCutoff t code s else moved

/-- Every armed cut-off that has passed expires, in the order of the deadline list (R69, R70). -/
def Work.expirePassed (w : Work) : Work :=
  w.each (fun d w => w.expireCutoff d.title d.code d.site) (w.deadlines.filter (fun d => w.cutoffPassed d.cutoff))

/-- The first armed cut-off expires, if it has passed (R72). -/
def Work.expireFirst (w : Work) : Work :=
  match w.deadlines with
  | [] => w
  | d :: _ => if w.cutoffPassed d.cutoff then w.expireCutoff d.title d.code d.site else w

/-- A WAITING or LATE edition-site whose count reaches a page count of 1 or more becomes READY (R73). -/
def Work.gainReadiness (t : Title) (code : Nat) (s : Site) (w : Work) : Work :=
  match w.editionSite t code s with
  | none => w
  | some x =>
    if (x.state == .waiting || x.state == .late) && Nat.ble 1 x.pageCount && Nat.ble x.pageCount x.delivered then
      (((w.modEditionSite t code s (fun x => { x with state := .ready })).disarm t code s).toTitle t
        (.ready code s x.lateMark)).toDesk (.ready code s x.lateMark)
    else w

/-- A READY edition-site whose count is below its page count loses its readiness: WAITING and armed, or LATE (R74). -/
def Work.loseReadiness (t : Title) (code : Nat) (s : Site) (w : Work) : Work :=
  match w.editionSite t code s with
  | none => w
  | some x =>
    if x.state == .ready && Nat.blt x.delivered x.pageCount then
      let told := (w.toTitle t (.readyLost code s)).toDesk (.readyLost code s)
      if w.cutoffPassed x.cutoff then told.becomeLate t code s
      else (told.modEditionSite t code s (fun x => { x with state := .waiting })).arm t code s x.cutoff
    else w

/-- Readiness evaluated with the counts as they stand (R68, R73, R74). -/
def Work.evaluateReadiness (t : Title) (code : Nat) (s : Site) (w : Work) : Work :=
  (w.gainReadiness t code s).loseReadiness t code s

/-- The Release Table's report that a page joins the count at a site (R24, R73). -/
def Work.pageJoins (t : Title) (code : Nat) (s : Site) (w : Work) : Work :=
  (w.modEditionSite t code s (fun x => { x with delivered := x.delivered + 1 })).gainReadiness t code s

/-- The Release Table's report that a page leaves the count at a site (R24, R74). -/
def Work.pageLeaves (t : Title) (code : Nat) (s : Site) (w : Work) : Work :=
  (w.modEditionSite t code s (fun x => { x with delivered := x.delivered - 1 })).loseReadiness t code s

/-- A PLATE or WITHDRAW entry whose page key carries the edition (R79). -/
def Entry.namesEdition (t : Title) (code : Nat) (e : Entry) : Bool :=
  match e.key with
  | some k => k.title == t && k.edition == code
  | none => false

/-- A RETIRING record is freed once no entry names its edition, and EDITION_FREED goes to the title (R80). -/
def Work.freeEdition (t : Title) (code : Nat) (w : Work) : Work :=
  if w.editionState t code == some .retiring && !w.entries.any (Entry.namesEdition t code) then
    ({ w with editions := w.editions.filter (fun r => !r.is t code) } : Work).toTitle t (.editionFreed code)
  else w

end Sys2Proof.Machine
end

