-- ==== Sys2Proof/Machine/ImageStore.lean ====
section
/-! DEFINITION. The Image Store (chapter 3): image records, extents, quotas, reference counts and band reads. -/

namespace Sys2Proof.Machine

/-- Image records in the store (R50). -/
def imageLimit : Nat := 2048

/-- The lowest number from `k` on, within a number of tries, that is not taken. -/
def firstFree (taken : Nat → Bool) : Nat → Nat → Option Nat
  | 0, _ => none
  | tries + 1, k => if taken k then firstFree taken tries (k + 1) else some k

def Work.findImage (w : Work) (id : Nat) : Option ImageRec := w.images.find? (fun r => r.id == id)

def Work.modImage (id : Nat) (f : ImageRec → ImageRec) (w : Work) : Work :=
  { w with images := w.images.map (fun r => if r.id == id then f r else r) }

def Work.findExtent (w : Work) (n : Nat) : Option Extent := w.extents.find? (fun e => e.number == n)

/-- The image is in use and DAMAGED. -/
def Work.imageDamaged (w : Work) (id : Nat) : Bool :=
  match w.findImage id with
  | some r => r.state == .damaged
  | none => false

/-- Some image record is free (R52). -/
def Work.imageFree (w : Work) : Bool := Nat.blt w.images.length imageLimit

/-- The lowest-numbered free record taken in FILLING (R52). -/
def Work.takeImage (key : PageKey) (sep : Sep) (version bands : Nat) (w : Work) : Option (Nat × Work) :=
  match firstFree (fun id => w.images.any (fun r => r.id == id)) imageLimit 0 with
  | none => none
  | some id =>
    some (id, { w with
      images := w.images ++ [{ id := id, key := key, sep := sep, version := version, bandCount := bands, bytesStored := 0,
                               bandsStored := 0, head := none, tail := none, extentsHeld := 0, state := .filling, count := 0 }] })

/-- A record freed: every extent it holds returns to the pool and to its title's use, and the record is free (R51, R57). -/
def Work.freeImage (id : Nat) (w : Work) : Work :=
  match w.findImage id with
  | none => w
  | some r =>
    let n := (w.extents.filter (fun e => e.holder == id)).length
    { w with
      images := w.images.filter (fun x => x.id != id)
      extents := w.extents.filter (fun e => e.holder != id)
      freeExtents := w.freeExtents + n
      used := w.used.put r.key.title (w.used.get r.key.title - n) }

/-- A reference count raised by one (R59). -/
def Work.raiseImage (id : Nat) (w : Work) : Work := w.modImage id (fun r => { r with count := r.count + 1 })

/-- A reference count lowered by one; a SEALED or DAMAGED image whose count becomes 0 is freed (R59). -/
def Work.lowerImage (id : Nat) (w : Work) : Work :=
  match w.findImage id with
  | none => w
  | some r =>
    if r.count - 1 == 0 && (r.state == .sealed || r.state == .damaged) then w.freeImage id
    else w.modImage id (fun r => { r with count := r.count - 1 })

/-- Every image a record names loses that reference. -/
def Work.lowerRefs (refs : ImageRefs) (w : Work) : Work := w.each Work.lowerImage refs.toList

/-- A title's use beyond its quota (R55). -/
def Work.overflow (w : Work) (t : Title) : Nat := w.used.get t - w.quota.get t

/-- The extents beyond both quotas (R55). -/
def Work.sharedPart (w : Work) : Nat := w.extentCount - w.quota.a - w.quota.b

/-- An extent claim by a title is granted (R55). -/
def Work.claimGranted (t : Title) (w : Work) : Bool :=
  Nat.blt (w.used.get t) (w.quota.get t) || Nat.blt (w.overflow .a + w.overflow .b) w.sharedPart

/-- The lowest-numbered free extent. -/
def Work.lowestExtent (w : Work) : Option Nat :=
  firstFree (fun n => w.extents.any (fun e => e.number == n)) w.extentCount 0

/-- The DRAM address of a byte of an extent: extent n begins at n times the extent size (log 38). -/
def extentAddr (n offset : Nat) : Nat := n * extentBytes + offset

/-- The bytes a band occupies: its length word, most significant byte first (log 23), and its payload (R54). -/
def storedBand (payload : List Byte) : List Byte :=
  wordBytesOfNat payload.length ++ payload
where
  wordBytesOfNat (n : Nat) : List Byte :=
    [BitVec.ofNat 8 (n / 16777216), BitVec.ofNat 8 (n / 65536), BitVec.ofNat 8 (n / 256), BitVec.ofNat 8 n]

/-- The band counts of an image after a band of L bytes was placed (R54). -/
def ImageRec.stored (size : Nat) (r : ImageRec) : ImageRec :=
  { r with bandsStored := r.bandsStored + 1, bytesStored := r.bytesStored + size }

/-- The tail extent, when it has room for a band of L bytes and its length word (R54). -/
def Work.tailRoom (r : ImageRec) (size : Nat) (w : Work) : Option Extent :=
  match r.tail with
  | none => none
  | some t =>
    match w.findExtent t with
    | none => none
    | some e => if e.used + size + 4 ≤ extentBytes then some e else none

/-- A band of L bytes and index i placed for an image: in its tail, or in a newly claimed extent linked behind it; the answer is the
address the length word is written at, or none when the claim is refused and the image enters OVERRUN (R54, R55, R56). -/
def Work.placeBand (id i size : Nat) (w : Work) : Work × Option Nat :=
  match w.findImage id with
  | none => (w, none)
  | some r =>
    match w.tailRoom r size with
    | some e =>
      (({ w with extents := w.extents.map (fun x => if x.number == e.number then { x with used := x.used + size + 4 } else x) }
          : Work).modImage id (ImageRec.stored size),
        some (extentAddr e.number e.used))
    | none =>
      match (if w.claimGranted r.key.title then w.lowestExtent else none) with
      | none => (w.modImage id (fun r => { r with state := .overrun }), none)
      | some n =>
        let linked := w.extents.map (fun x => if some x.number == r.tail then { x with next := some n } else x)
        (({ w with
            extents := linked ++ [{ number := n, holder := id, next := none, used := size + 4, firstBand := i }]
            freeExtents := w.freeExtents - 1
            used := w.used.put r.key.title (w.used.get r.key.title + 1) } : Work).modImage id
            (fun r => ImageRec.stored size
              { r with head := (match r.head with | none => some n | some h => some h), tail := some n,
                       extentsHeld := r.extentsHeld + 1 }),
          some (extentAddr n 0))

/-- The seal taken by the Release Table: SEALED with reference count 1 (R58). -/
def Work.sealImage (id : Nat) (w : Work) : Work := w.modImage id (fun r => { r with state := .sealed, count := 1 })

/-- The extent of a chain that holds band i: on to the next extent while it exists and its first band is at most i (R60). -/
def Work.walkChain (i : Nat) (w : Work) : Nat → Extent → Extent
  | 0, e => e
  | fuel + 1, e =>
    match e.next with
    | none => e
    | some n =>
      match w.findExtent n with
      | none => e
      | some x => if x.firstBand ≤ i then w.walkChain i fuel x else e

/-- The number the four bytes of a length word hold. -/
def readLength (m : List Host.Cell) (a : Nat) : Nat :=
  (readBytes m a 4).foldl (fun n b => n * 256 + b.toNat) 0

/-- The address of the length word after a number of bands stepped over (R60). -/
def skipBands (m : List Host.Cell) : Nat → Nat → Nat
  | 0, a => a
  | n + 1, a => skipBands m n (a + readLength m a + 4)

/-- The payload of band i of an image, read by walking its chain (R60). -/
def Work.readBand (m : List Host.Cell) (r : ImageRec) (i : Nat) (w : Work) : List Byte :=
  match r.head with
  | none => []
  | some h =>
    match w.findExtent h with
    | none => []
    | some first =>
      let e := w.walkChain i w.extents.length first
      let a := skipBands m (i - e.firstBand) (extentAddr e.number 0)
      readBytes m (a + 4) (readLength m a)

end Sys2Proof.Machine
end

