-- ==== Sys2Proof/Machine/Scheduler.lean ====
section
/-! DEFINITION. The Dispatch Scheduler (chapter 6): the dispatch pool, queue order, TARGET deadlines, gates, target wants, the creation
and freeing of entries, and the abort a Line Engine takes for it (R144). -/

namespace Sys2Proof.Machine

/-- Dispatch records (R110). -/
def dispatchLimit : Nat := 1024

/-- Free dispatch records (R110). -/
def Work.freeRecords (w : Work) : Nat := dispatchLimit - w.entries.length

def Work.findEntry (w : Work) (n : Nat) : Option Entry := w.entries.find? (fun e => e.number == n)

/-! ### Queue order (R114) -/

/-- TARGET before PLATE. -/
def EntryKind.rank : EntryKind → Nat
  | .withdraw => 0
  | .target => 1
  | .plate => 2

/-- The four keys of R114, in order, as one list of numbers; WITHDRAW entries differ by the last alone. -/
def Entry.orderKey (e : Entry) : List Nat :=
  match e.kind with
  | .withdraw => [0, 0, 0, 0, e.seq]
  | .target | .plate =>
    [1,
     match e.deadline with
      | some _ => 0
      | none => 1,
     e.deadline.getD 0, e.kind.rank, e.seq]

/-- The first key that differs decides. -/
def keyBefore : List Nat → List Nat → Bool
  | x :: xs, y :: ys => Nat.blt x y || (x == y && keyBefore xs ys)
  | _, _ => true

def Entry.before (x y : Entry) : Bool := keyBefore x.orderKey y.orderKey

def insertEntry (e : Entry) : List Entry → List Entry
  | [] => [e]
  | x :: xs => if e.before x then e :: x :: xs else x :: insertEntry e xs

/-- A site's queue in its order (R114). -/
def Work.queue (w : Work) (s : Site) : List Entry := (w.entries.filter (fun e => e.site == s)).foldr insertEntry []

/-! ### TARGET deadlines (R116) -/

/-- A PLATE entry of a site and slot that carries the TARGET gate. -/
def Entry.waitsFor (s : Site) (k : SlotNo) (e : Entry) : Bool :=
  e.kind == .plate && e.site == s && e.slot == some k && e.gates.target

/-- The earlier of two deadlines, an absent one being the later. -/
def earlier : Option Nat → Option Nat → Option Nat
  | none, d => d
  | some x, none => some x
  | some x, some y => some (min x y)

/-- The earliest deadline among the plates of a site that wait for a slot (R116). -/
def waitingDeadline (es : List Entry) (s : Site) (k : SlotNo) : Option Nat :=
  (es.filter (Entry.waitsFor s k)).foldl (fun d e => earlier d e.deadline) none

/-- The deadline R116 gives an entry: computed for a TARGET entry outside ABORTING, its own for every other. -/
def Entry.withTargetDeadline (es : List Entry) (e : Entry) : Entry :=
  match e.kind, e.slot with
  | .target, some k => if e.state == .aborting then e else { e with deadline := waitingDeadline es e.site k }
  | _, _ => e

/-- The entries replaced, the TARGET deadlines recomputed (R116). -/
def Work.setEntries (es : List Entry) (w : Work) : Work := { w with entries := es.map (Entry.withTargetDeadline es) }

/-- Every entry that satisfies a condition changed. -/
def Work.modEntries (p : Entry → Bool) (f : Entry → Entry) (w : Work) : Work :=
  w.setEntries (w.entries.map (fun e => if p e then f e else e))

/-- One entry changed. -/
def Work.modEntry (n : Nat) (f : Entry → Entry) (w : Work) : Work := w.modEntries (fun e => e.number == n) f

/-! ### Gates (R117, R118) -/

def Gates.none : Gates := { target := false, hold := false, colour := false, resupply := false }

def Gates.isEmpty (g : Gates) : Bool := !(g.target || g.hold || g.colour || g.resupply)

def Work.holding (w : Work) (s : Site) (k : SlotNo) : Nat := tget (tget w.holdings s) k

def Work.setHolding (s : Site) (k : SlotNo) (g : Nat) (w : Work) : Work := { w with holdings := tmod w.holdings s (fun v => tput v k g) }

def Work.check (w : Work) (s : Site) (k : SlotNo) : CheckRec := tget (tget w.checks s) k

def Work.setCheck (s : Site) (k : SlotNo) (r : CheckRec) (w : Work) : Work := { w with checks := tmod w.checks s (fun v => tput v k r) }

/-- The edition hold flag, clear when the edition has no record. -/
def Work.editionHold (w : Work) (t : Title) (code : Nat) : Bool :=
  match w.findEdition t code with
  | some r => r.hold
  | none => false

/-- The HOLD gate's condition for a page (R117). -/
def Work.held (w : Work) (k : PageKey) : Bool := w.editionHold k.title k.edition || w.titleHold.get k.title

/-- The gate set a PLATE entry's conditions give (R117). -/
def Work.gatesOf (w : Work) (e : Entry) : Gates :=
  { target := match e.slot with
      | some k => Nat.blt (w.holding e.site k) e.generation
      | none => false
    hold := match e.key with
      | some k => w.held k
      | none => false
    colour := match e.slot with
      | some k => (w.check e.site k).hold
      | none => false
    resupply := match e.image with
      | some i => w.imageDamaged i
      | none => false }

/-- QUEUED or GATED. -/
def Entry.waiting (e : Entry) : Bool := e.state == .queued || e.state == .gated

/-- The entry with a gate set, GATED while it is not empty and QUEUED while it is (R117). -/
def Entry.withGates (e : Entry) (g : Gates) : Entry := { e with gates := g, state := if g.isEmpty then .queued else .gated }

/-- A neighbour's report: the gate sets of the waiting PLATE entries that satisfy a condition change, and with them their states and
the TARGET deadlines (R118). -/
def Work.regate (p : Entry → Bool) (f : Entry → Gates) (w : Work) : Work :=
  w.modEntries (fun e => e.kind == .plate && e.waiting && p e) (fun e => e.withGates (f e))

/-! ### Creation (R112) and target wants (R119) -/

/-- How a look at a target want is taken: at once, or marking it only (within an admission or a load's distribution), or not at all
(when a site restart empties the queue). -/
inductive LookMode where
  | now
  | mark
  | skip
deriving DecidableEq, Repr

/-- The lowest-numbered free record (R112). -/
def Work.freeNumber (w : Work) : Option Nat := firstFree (fun n => w.entries.any (fun x => x.number == n)) dispatchLimit 0

/-- An entry created in the lowest-numbered free record, with the next insertion number (R112). The fields of its kind are those of
`e`; its number and sequence number are set here. The insertion counter rises without a limit (log 43). -/
def Work.createEntry (e : Entry) (w : Work) : Work :=
  match w.freeNumber with
  | none => w
  | some n => { (w.setEntries (w.entries ++ [{ e with number := n, seq := w.insertion }])) with insertion := w.insertion + 1 }

def Work.slot (w : Work) (k : SlotNo) : TargetSlot := tget w.slots k

/-- A TARGET entry created at the slot's current generation (R112). -/
def Work.createTarget (s : Site) (k : SlotNo) (w : Work) : Work :=
  w.createEntry
    { number := 0, kind := .target, site := s, key := none, sep := none, version := 0, image := none, slot := some k,
      generation := (w.slot k).generation, deadline := none, late := false, state := .queued, gates := .none, acked := 0,
      refusals := 0, cause := none, seq := 0 }

/-- A WITHDRAW entry created with the site's held version (R107, R109). -/
def Work.createWithdraw (s : Site) (key : PageKey) (version : Nat) (w : Work) : Work :=
  w.createEntry
    { number := 0, kind := .withdraw, site := s, key := some key, sep := none, version := version, image := none, slot := none,
      generation := 0, deadline := none, late := false, state := .queued, gates := .none, acked := 0, refusals := 0, cause := none,
      seq := 0 }

/-- A PLATE entry created for a separation of a released version: its deadline the edition-site's cut-off, the LATE flag as the
edition-site is LATE, its gates evaluated, its image's count raised (R112). -/
def Work.createPlate (s : Site) (key : PageKey) (r : Released) (sep : Sep) (image : Nat) (w : Work) : Work :=
  let site := w.editionSite key.title key.edition s
  let e : Entry :=
    { number := 0, kind := .plate, site := s, key := some key, sep := some sep, version := r.version, image := some image,
      slot := some r.slot, generation := r.generation, deadline := site.map EditionSite.cutoff,
      late := (site.map EditionSite.state) == some .late, state := .queued, gates := .none, acked := 0, refusals := 0, cause := none,
      seq := 0 }
  if w.freeNumber.isSome then (w.createEntry (e.withGates (w.gatesOf e))).raiseImage image else w

/-- The site's queue holds a TARGET entry of the slot outside ABORTING. -/
def Work.hasTarget (w : Work) (s : Site) (k : SlotNo) : Bool :=
  w.entries.any (fun e => e.kind == .target && e.site == s && e.slot == some k && e.state != .aborting)

/-- A target want of a site and a slot exists (R119). -/
def Work.wantExists (w : Work) (s : Site) (k : SlotNo) : Bool :=
  w.entries.any (fun e => e.waitsFor s k && e.waiting) && !w.hasTarget s k

/-- Site order, and within a site slot order (R119). -/
def wantBefore (x y : Site × SlotNo) : Bool := Nat.blt x.1.val y.1.val || (x.1 == y.1 && Nat.ble x.2.val y.2.val)

def insertWant (x : Site × SlotNo) : List (Site × SlotNo) → List (Site × SlotNo)
  | [] => [x]
  | y :: ys => if wantBefore x y then x :: y :: ys else y :: insertWant x ys

/-- A want marked, once. -/
def Work.markWant (s : Site) (k : SlotNo) (w : Work) : Work :=
  if w.wants.contains (s, k) then w else { w with wants := insertWant (s, k) w.wants }

/-- The look at the want of a site and a slot (R119). -/
def Work.lookWant (m : LookMode) (s : Site) (k : SlotNo) (w : Work) : Work :=
  if w.wantExists s k then
    match m with
    | .skip => w
    | .mark => w.markWant s k
    | .now => if Nat.ble 1 w.freeRecords then w.createTarget s k else w.markWant s k
  else w

/-- The marked wants served in order while records remain: one TARGET entry to each that still exists, the others unmarked (R119). -/
def serveWants : List (Site × SlotNo) → Work → Work
  | [], w => { w with wants := [] }
  | x :: xs, w =>
    if w.wantExists x.1 x.2 then
      if Nat.ble 1 w.freeRecords then serveWants xs (w.createTarget x.1 x.2) else { w with wants := x :: xs }
    else serveWants xs w

def Work.serveMarkedWants (w : Work) : Work := serveWants w.wants w

/-! ### Freeing (R113, steps 1 to 4) -/

/-- The image count a PLATE entry holds is given up. -/
def Work.dropEntryImage (e : Entry) (w : Work) : Work :=
  match e.kind, e.image with
  | .plate, some i => w.lowerImage i
  | _, _ => w

/-- The look that the freeing of an entry brings: for a PLATE with the TARGET gate and for a TARGET entry (R113, R119). -/
def Work.lookAfter (m : LookMode) (e : Entry) (w : Work) : Work :=
  match e.slot with
  | some k => if e.kind == .target || (e.kind == .plate && e.gates.target) then w.lookWant m e.site k else w
  | none => w

/-- A RETIRING edition is freed with the last entry that names it (R80, R113). -/
def Work.freeEditionOf (e : Entry) (w : Work) : Work :=
  match e.key with
  | some k => w.freeEdition k.title k.edition
  | none => w

/-- An entry freed: steps 1 to 4 of R113. -/
def Work.freeEntry (m : LookMode) (n : Nat) (w : Work) : Work :=
  match w.findEntry n with
  | none => w
  | some e =>
    ((((w.dropEntryImage e).setEntries (w.entries.filter (fun x => x.number != n))).lookAfter m e).freeEditionOf e)

/-! ### Aborts (R124, R144) -/

/-- The reads whose answers will be dropped (R134, R144). -/
def Engine.dropReads (e : Engine) : Engine := { e with reads := e.reads.map (fun r => { r with use := .dropped }) }

/-- The outbound frames kept when a transfer is given up: the one in transmission, and every one that is no band (R144, log 13). -/
def keepBegun : List OutFrame → List OutFrame
  | [] => []
  | f :: fs => f :: fs.filter (fun g => match g with
      | .band _ _ _ => false
      | _ => true)

/-- A PLATE transfer aborted: no further band, PLATE_ABORT, ABORTING with T_ack started (R144). -/
def Engine.abortPlate (tAck : Nat) (key : PageKey) (sep : Sep) (version : Nat) (e : Engine) : Engine :=
  { e.dropReads with
    state := .aborting, tx := keepBegun e.tx ++ [.plateAbort e.tag key sep version], tConf := none, tAck := some tAck }

/-- A TARGET transfer aborted in silence: at once in CONFIRMING, when its TARGET_SET has left in SENDING (R144, log 14). -/
def Engine.abortTarget (tAck : Nat) (e : Engine) : Engine :=
  if e.state == .confirming then { e with state := .aborting, tConf := none, tAck := some tAck } else e

/-- An abort taken by a site's engine: the entry is ABORTING with its cause, the transfer is stopped (R144). -/
def Work.abortEntry (c : ConfigWords) (m : LookMode) (cause : AbortCause) (e : Entry) (w : Work) : Work :=
  let w := w.modEntry e.number (fun x => { x with state := .aborting, cause := some cause })
  match e.kind, e.key, e.sep, e.slot with
  | .plate, some key, some sep, _ => w.modEngine e.site (Engine.abortPlate (cfg c .tAck) key sep e.version)
  | .target, _, _, some k => (w.modEngine e.site (Engine.abortTarget (cfg c .tAck))).lookWant m e.site k
  | _, _, _, _ => w

/-- An entry the Scheduler no longer wants sent, by its kind and state (R124). -/
def Work.dealWith (c : ConfigWords) (m : LookMode) (cause : AbortCause) (e : Entry) (w : Work) : Work :=
  match e.kind, e.state with
  | _, .queued | _, .gated => w.freeEntry m e.number
  | .plate, .active => w.abortEntry c m cause e
  | .target, .active | .target, .confirming => w.abortEntry c m cause e
  | .plate, .confirming | .withdraw, .active | .withdraw, .confirming | _, .aborting => w

/-- Every entry of a site's queue that satisfies a condition dealt with, in queue order. -/
def Work.dealWithAll (c : ConfigWords) (m : LookMode) (cause : AbortCause) (s : Site) (p : Entry → Bool) (w : Work) : Work :=
  w.each (Work.dealWith c m cause) ((w.queue s).filter p)

/-- A PLATE entry of a page. -/
def Entry.plateOfPage (key : PageKey) (e : Entry) : Bool := e.kind == .plate && e.key == some key

/-- A WITHDRAW entry of a page. -/
def Entry.withdrawOfPage (key : PageKey) (e : Entry) : Bool := e.kind == .withdraw && e.key == some key

/-- A kill's part in the queues: every PLATE entry of the page, at every site (R125). The sites are taken in site order and
the entries of a site in queue order (log 44). -/
def Work.killPlates (c : ConfigWords) (key : PageKey) (w : Work) : Work :=
  w.each (fun s w => w.dealWithAll c .now .killed s (Entry.plateOfPage key)) allSites

/-- A close's part in the queues: every PLATE and WITHDRAW entry of the edition at the newly CLOSED sites (R126), in site order and in
queue order (log 44). -/
def Work.closeEntries (c : ConfigWords) (t : Title) (code : Nat) (sites : SiteSet) (w : Work) : Work :=
  w.each (fun s w => w.dealWithAll c .now .closed s (Entry.namesEdition t code)) (SiteSet.toList sites)

/-- The new cut-off given as the deadline of the edition's PLATE entries at a site (R115). -/
def Work.giveDeadline (t : Title) (code : Nat) (s : Site) (cutoff : Nat) (w : Work) : Work :=
  w.modEntries (Entry.plateOf t code s) (fun e => { e with deadline := some cutoff })

/-! ### Reports of holdings, holds and colour holds (R118) -/

/-- A PLATE entry's slot in a site's queue. -/
def Entry.atSlot (s : Site) (k : SlotNo) (e : Entry) : Bool := e.site == s && e.slot == some k

/-- A holding raised to g: TARGET gates met are removed, and a satisfied QUEUED TARGET entry is freed (R118). -/
def Work.holdingRaised (s : Site) (k : SlotNo) (g : Nat) (w : Work) : Work :=
  let w := w.regate (fun e => e.atSlot s k && Nat.ble e.generation g) (fun e => { e.gates with target := false })
  w.each (fun e w => w.freeEntry .now e.number)
    ((w.queue s).filter (fun e => e.kind == .target && e.state == .queued && e.slot == some k && Nat.ble e.generation g))

/-- A holding cleared: PLATE entries bound above 0 take the TARGET gate, and the want is looked at (R118, R119). -/
def Work.holdingCleared (s : Site) (k : SlotNo) (w : Work) : Work :=
  (w.regate (fun e => e.atSlot s k && Nat.blt 0 e.generation) (fun e => { e.gates with target := true })).lookWant .now s k

/-- A hold flag changed: the HOLD gate of the title's, or the edition's, PLATE entries as the two flags now stand (R118). -/
def Work.holdChanged (t : Title) (code : Option Nat) (w : Work) : Work :=
  w.regate
    (fun e => match e.key with
      | some k => k.title == t && (match code with
          | some c => k.edition == c
          | none => true)
      | none => false)
    (fun e => { e.gates with hold := match e.key with
      | some k => w.held k
      | none => false })

/-- A colour hold set or cleared: the COLOUR gate of the slot's PLATE entries in the site's queue (R118). -/
def Work.colourGate (s : Site) (k : SlotNo) (set : Bool) (w : Work) : Work :=
  w.regate (Entry.atSlot s k) (fun e => { e.gates with colour := set })

end Sys2Proof.Machine
end

