-- ==== Sys2Proof/Machine/ReleaseTable.lean ====
section
/-! DEFINITION. The Release Table (chapter 1): page records, candidates, the release backlog (R102, R103), release, kill, deliveries,
site restart, close and retire. -/

namespace Sys2Proof.Machine

/-- Page records (R1). -/
def pageLimit : Nat := 1024

def Work.findPage (w : Work) (key : PageKey) : Option PageRec := w.pages.find? (fun p => p.key == key)

def Work.modPage (key : PageKey) (f : PageRec → PageRec) (w : Work) : Work :=
  { w with pages := w.pages.map (fun p => if p.key == key then f p else p) }

def PageRec.site (p : PageRec) (s : Site) : PageSite := tget p.sites s

def PageRec.modSite (s : Site) (f : PageSite → PageSite) (p : PageRec) : PageRec := { p with sites := tmod p.sites s f }

/-- The released version, 0 when there is none (R6). -/
def PageRec.releasedVersion (p : PageRec) : Nat :=
  match p.released with
  | some r => r.version
  | none => 0

/-- The released site mask, {} while the page is OPEN (R11). -/
def PageRec.oldMask (p : PageRec) : SiteSet :=
  match p.released with
  | some r => r.mask
  | none => 0#8

/-- The page is in a site's delivered count (R24). -/
def PageRec.countedAt (p : PageRec) (s : Site) : Bool :=
  match p.state, p.released with
  | .live, some r => SiteSet.has r.mask s && (p.site s).held == r.version
  | _, _ => false

/-- A page of an edition. -/
def PageRec.ofEdition (t : Title) (code : Nat) (p : PageRec) : Bool := p.key.title == t && p.key.edition == code

/-- The candidate is both approved and COMPLETE (R11). -/
def PageRec.releasable (p : PageRec) : Bool :=
  match p.candidate with
  | some c => c.approved && c.state == .complete
  | none => false

/-- Some page of the edition names the site: in its declared or released mask, or by a held version above 0 (R67). -/
def Work.siteNamed (w : Work) (t : Title) (code : Nat) (s : Site) : Bool :=
  w.pages.any (fun p => p.ofEdition t code && (SiteSet.has p.declMask s || SiteSet.has p.oldMask s || Nat.blt 0 (p.site s).held))

/-! ### The backlog (R11 to R13, R102, R103) -/

def Work.findItem (w : Work) (key : PageKey) : Option BacklogItem := w.backlog.find? (fun i => i.key == key)

def Work.dropItem (key : PageKey) (w : Work) : Work := { w with backlog := w.backlog.filter (fun i => i.key != key) }

/-- A page's item changed in its place; removed when its site set is empty. -/
def Work.putItem (i : BacklogItem) (w : Work) : Work :=
  if i.sites == 0#8 then w.dropItem i.key
  else { w with backlog := w.backlog.map (fun x => if x.key == i.key then i else x) }

/-- A RELEASE or RESEED item arrives at the tail, unless its site set is empty. -/
def Work.addItem (i : BacklogItem) (w : Work) : Work := if i.sites == 0#8 then w else { w with backlog := w.backlog ++ [i] }

/-- A WITHDRAW item at the tail of the WITHDRAW class, in place of any item the page had; none when its site set is empty (R16, R103). -/
def Work.putWithdraw (key : PageKey) (sites : SiteSet) (w : Work) : Work :=
  let w := w.dropItem key
  if sites == 0#8 then w
  else
    { w with
      backlog := w.backlog.filter (fun i => i.kind == .withdraw)
        ++ ({ key := key, kind := .withdraw, sites := sites, carried := 0#8 } :: w.backlog.filter (fun i => i.kind != .withdraw)) }

/-- The site set of a RELEASE membership: new mask, old mask and carried reseed set, less CLOSED sites (R11). -/
def Work.releaseSites (w : Work) (p : PageRec) (carried : SiteSet) : SiteSet :=
  SiteSet.less (p.declMask ||| p.oldMask ||| carried) (w.closedSites p.key.title p.key.edition)

/-- A page joins the backlog as RELEASE (R11); a RELEASE membership it has is recomputed in its place (R4). A RESEED item becomes RELEASE
in its place, though a RELEASE was withdrawn into it for damage (R12, R103, log 57). -/
def Work.joinRelease (key : PageKey) (w : Work) : Work :=
  match w.findPage key, w.findItem key with
  | none, _ => w
  | some p, none => w.addItem { key := key, kind := .release, sites := w.releaseSites p 0#8, carried := 0#8 }
  | some p, some i =>
    match i.kind with
    | .reseed => w.putItem { key := key, kind := .release, sites := w.releaseSites p i.sites, carried := i.sites }
    | .release => w.putItem { i with sites := w.releaseSites p i.carried }
    | .withdraw => w

/-- A RELEASE membership withdrawn: RESEED with the carried reseed set less CLOSED sites, or removed (R12). -/
def Work.withdrawRelease (key : PageKey) (w : Work) : Work :=
  match w.findItem key with
  | none => w
  | some i =>
    if i.kind == .release then
      w.putItem { key := key, kind := .reseed, sites := SiteSet.less i.carried (w.closedSites key.title key.edition), carried := 0#8 }
    else w

/-- A RESEED for a set of sites merged into the page's membership (R13). -/
def Work.joinReseed (key : PageKey) (sites : SiteSet) (w : Work) : Work :=
  match w.findPage key, w.findItem key with
  | none, _ => w
  | some _, none => w.addItem { key := key, kind := .reseed, sites := sites, carried := 0#8 }
  | some p, some i =>
    match i.kind with
    | .reseed => w.putItem { i with sites := i.sites ||| sites }
    | .release => w.putItem { i with carried := i.carried ||| sites, sites := w.releaseSites p (i.carried ||| sites) }
    | .withdraw => w

/-- Sites taken out of an item; an item left without a site is removed (R25, R26). -/
def Work.dropItemSites (sites : SiteSet) (i : BacklogItem) (w : Work) : Work :=
  w.putItem { i with sites := SiteSet.less i.sites sites, carried := SiteSet.less i.carried sites }

/-- A close's part in the backlog (R26). -/
def Work.closeBacklog (t : Title) (code : Nat) (sites : SiteSet) (w : Work) : Work :=
  w.each (Work.dropItemSites sites) (w.backlog.filter (fun i => i.key.title == t && i.key.edition == code))

/-! ### Candidates (R5 to R8, R20) -/

/-- The answer where V is not above R: a resupply when V equals R, the page is LIVE and the separation awaits resupply (R6). -/
def PageRec.resupplyAnswer (p : PageRec) (sep : Sep) (v : Nat) : Except Result Acceptance :=
  match p.state, p.released with
  | .live, some r => if v == r.version && SepSet.has r.resupply sep then .ok .resupply else .error .staleVersion
  | _, _ => .error .staleVersion

/-- The answer to an IMAGE_BEGIN (R6). -/
def PageRec.beginAnswer (p : PageRec) (sep : Sep) (v : Nat) : Except Result Acceptance :=
  if v == 0 then .error .badArgument
  else
    match p.candidate with
    | some c =>
      if v == c.version then
        if (c.images.get sep).isNone then .ok .fill else .error .duplicateSeparation
      else if Nat.blt c.version v then .ok .new
      else if Nat.blt p.releasedVersion v then .error .staleVersion
      else p.resupplyAnswer sep v
    | none => if Nat.blt p.releasedVersion v then .ok .new else p.resupplyAnswer sep v

/-- A candidate discarded with its references and its approval; a RELEASE membership is withdrawn (R5, R7). -/
def Work.discardCandidate (key : PageKey) (w : Work) : Work :=
  match w.findPage key with
  | none => w
  | some p =>
    match p.candidate with
    | none => w
    | some c => ((w.lowerRefs c.images).modPage key (fun p => { p with candidate := none })).withdrawRelease key

/-- A new candidate in COLLECTING; an old one is discarded first, with CANDIDATE_REPLACED to the title (R5, R7). -/
def Work.newCandidate (key : PageKey) (version : Nat) (w : Work) : Work :=
  let fresh : Candidate := { version := version, images := .none, state := .collecting, approved := false }
  match (w.findPage key).bind PageRec.candidate with
  | none => w.modPage key (fun p => { p with candidate := some fresh })
  | some old =>
    ((w.discardCandidate key).toTitle key.title (.candidateReplaced key old.version version)).modPage key
      (fun p => { p with candidate := some fresh })

/-- Every separation the colour requires has a reference. -/
def covers (refs : ImageRefs) (colour : Colour) : Bool := colour.seps.all (fun p => (refs.get p).isSome)

/-- The candidate with a separation's reference placed; COMPLETE when the colour is covered (R8). -/
def Candidate.filled (colour : Colour) (sep : Sep) (id : Nat) (c : Candidate) : Candidate :=
  let images := c.images.put sep (some id)
  { c with images := images, state := if covers images colour then .complete else c.state }

/-- A sealed image attached to the candidate as a fill, or refused (R8). The seal and the attachment are one step (R58). -/
def Work.attachFill (id : Nat) (key : PageKey) (sep : Sep) (version : Nat) (w : Work) : Option Work :=
  match w.findPage key with
  | none => none
  | some p =>
    match p.candidate with
    | none => none
    | some c =>
      if c.version == version && (c.images.get sep).isNone then
        let filled := c.filled p.colour sep id
        let w := (w.sealImage id).modPage key (fun p => { p with candidate := some filled })
        some (if filled.approved && filled.state == .complete then w.joinRelease key else w)
      else none

/-! ### Release (R14) -/

/-- The released version record a candidate becomes (R14, steps 2 to 6). -/
def Work.releasedFrom (w : Work) (p : PageRec) (c : Candidate) : Released :=
  { version := c.version, images := c.images, mask := SiteSet.less p.declMask (w.closedSites p.key.title p.key.edition),
    slot := p.declSlot, generation := (w.slot p.declSlot).generation, resupply := 0#4 }

/-- The sites at which a page is counted (R24), in site order (log 36). -/
def PageRec.countedSites (p : PageRec) : List Site := allSites.filter p.countedAt

/-- The Edition Unit is told that a page leaves the count at some sites (R24), one after another in the order given (log 36). -/
def Work.leaveCount (key : PageKey) (sites : List Site) (w : Work) : Work :=
  w.each (fun s => Work.pageLeaves key.title key.edition s) sites

/-- The candidate released (R14). The Edition Unit is told before RELEASED is appended (log 31). -/
def Work.releasePage (key : PageKey) (w : Work) : Work :=
  match w.findPage key with
  | none => w
  | some p =>
    match p.candidate with
    | none => w
    | some c =>
      let r := w.releasedFrom p c
      let w := match p.released with
        | some old => w.lowerRefs old.images
        | none => w
      let w := w.modPage key (fun p =>
        { p with released := some r, candidate := none, state := .live, sites := p.sites.map (fun x => { x with progress := 0#4 }) })
      (w.leaveCount key p.countedSites).toTitle key.title (.released key r.version r.mask)

/-! ### Kill (R16) -/

/-- The sites whose held version is above 0 and whose edition-site is not CLOSED (R16). -/
def Work.holdingSites (w : Work) (p : PageRec) : SiteSet :=
  SiteSet.less (SiteSet.ofPred (fun s => Nat.blt 0 (p.site s).held)) (w.closedSites p.key.title p.key.edition)

/-- The page side of a kill: state, candidate, references and membership (R16, steps 1 to 4). -/
def Work.killPage (p : PageRec) (w : Work) : Work :=
  let w := match p.candidate with
    | some c => w.lowerRefs c.images
    | none => w
  let w := match p.released with
    | some r => w.lowerRefs r.images
    | none => w
  let w := w.modPage p.key (fun p =>
    { p with
      state := .killed, candidate := none,
      released := p.released.map (fun r => { r with images := .none, resupply := 0#4 }) })
  w.putWithdraw p.key (w.holdingSites p)

/-! ### Deliveries and withdrawals (R22, R23) -/

/-- STRAY_PLATE to the title and to the desk (R22). -/
def Work.strayPlate (s : Site) (key : PageKey) (sep : Sep) (version : Nat) (w : Work) : Work :=
  (w.toTitle key.title (.strayPlate s key sep version)).toDesk (.strayPlate s key sep version)

/-- A delivery joins the count where the released mask contains the site (R24). -/
def Work.pageJoinsIf (key : PageKey) (mask : SiteSet) (s : Site) (w : Work) : Work :=
  if SiteSet.has mask s then w.pageJoins key.title key.edition s else w

/-- A PLATE_DONE reported by a Line Engine (R22). -/
def Work.plateDelivered (s : Site) (key : PageKey) (sep : Sep) (version : Nat) (w : Work) : Work :=
  match w.findPage key with
  | none => w
  | some p =>
    match p.state, p.released with
    | .opened, _ => w
    | .live, some r =>
      if version == r.version then
        let progress := (p.site s).progress ||| SepSet.one sep
        if (progress &&& p.colour.sepSet) == p.colour.sepSet && (p.site s).held != r.version then
          ((w.modPage key (PageRec.modSite s (fun _ => { held := r.version, progress := progress }))).toTitle key.title
            (.delivered key s r.version)).pageJoinsIf key r.mask s
        else w.modPage key (PageRec.modSite s (fun x => { x with progress := progress }))
      else w.strayPlate s key sep version
    | .live, none | .killed, _ => w.strayPlate s key sep version

/-- What a site holds of a page forgotten: the held version becomes 0 and the progress set is emptied, and a page counted there leaves
the count (R23, R25). -/
def Work.forgetHeld (s : Site) (p : PageRec) (w : Work) : Work :=
  let w := w.modPage p.key (PageRec.modSite s (fun _ => { held := 0, progress := 0#4 }))
  if p.countedAt s then w.pageLeaves p.key.title p.key.edition s else w

/-- A WITHDRAW_ACK reported by a Line Engine (R23). -/
def Work.pageWithdrawn (s : Site) (key : PageKey) (w : Work) : Work :=
  match w.findPage key with
  | none => w
  | some p => w.forgetHeld s p

/-! ### Site restart and retire (R25, R27) -/

/-- The edition-site is CLOSED. -/
def Work.siteClosed (w : Work) (t : Title) (code : Nat) (s : Site) : Bool := SiteSet.has (w.closedSites t code) s

/-- A site restart's effect on one page record (R25). -/
def Work.restartPage (s : Site) (p : PageRec) (w : Work) : Work :=
  let w := w.forgetHeld s p
  match p.state with
  | .opened => w
  | .live =>
    if SiteSet.has p.oldMask s && !w.siteClosed p.key.title p.key.edition s then w.joinReseed p.key (SiteSet.one s) else w
  | .killed =>
    match w.findItem p.key with
    | some i => w.dropItemSites (SiteSet.one s) i
    | none => w

/-- A site restart's effect on every page record, in the order the records were taken (R25, log 9). -/
def Work.restartPages (s : Site) (w : Work) : Work := w.each (Work.restartPage s) w.pages

/-- One page record freed at retire: every reference and its membership are removed (R27). -/
def Work.freePage (p : PageRec) (w : Work) : Work :=
  let w := match p.candidate with
    | some c => w.lowerRefs c.images
    | none => w
  let w := match p.released with
    | some r => w.lowerRefs r.images
    | none => w
  { w.dropItem p.key with pages := w.pages.filter (fun x => x.key != p.key) }

/-- Every page record of an edition freed (R27). -/
def Work.retirePages (t : Title) (code : Nat) (w : Work) : Work := w.each Work.freePage (w.pages.filter (PageRec.ofEdition t code))

end Sys2Proof.Machine
end

