-- ==== Sys2Proof/Machine/Damage.lean ====
section
/-! DEFINITION. Damaged images: the report of damage (R18, R19, R62, R120), resupply (R20, R120), and the return of an entry to its queue
(R121). -/

namespace Sys2Proof.Machine

/-! ### Resupply -/

/-- One entry's image reference swapped: the new image is raised, the old one lowered, and the entry starts from band 0 without the
RESUPPLY gate (R120). -/
def Work.swapEntry (new : Nat) (e : Entry) (w : Work) : Work :=
  let w := w.modEntry e.number (fun x =>
    let y : Entry := { x with image := some new, acked := 0 }
    if x.waiting then y.withGates { x.gates with resupply := false } else y)
  let w := w.raiseImage new
  match e.image with
  | some old => w.lowerImage old
  | none => w

/-- An entry the resupply swaps at once: QUEUED, GATED, or ABORTING for damage (R120). -/
def Entry.swappable (old : Nat) (e : Entry) : Bool :=
  e.kind == .plate && e.image == some old && (e.waiting || (e.state == .aborting && e.cause == some .damaged))

/-- The resupply swap in every queue (R120), in the order the entries were created (log 45). -/
def Work.swapImage (old new : Nat) (w : Work) : Work := w.each (Work.swapEntry new) (w.entries.filter (Entry.swappable old))

/-- A sealed image taken as a resupply, or refused (R20). -/
def Work.attachResupply (id : Nat) (key : PageKey) (sep : Sep) (version : Nat) (w : Work) : Option Work :=
  match w.findPage key with
  | none => none
  | some p =>
    match p.state, p.released with
    | .live, some r =>
      if r.version == version && SepSet.has r.resupply sep then
        let w := (w.sealImage id).modPage key (fun p =>
          { p with released := some { r with images := r.images.put sep (some id), resupply := SepSet.without r.resupply sep } })
        match r.images.get sep with
        | some old => some ((w.lowerImage old).swapImage old id)
        | none => some w
      else none
    | _, _ => none

/-! ### Damage -/

/-- The page's released version record names the image for the entry's separation, at the entry's version (R120). -/
def Work.releasedNames (w : Work) (e : Entry) (id : Nat) : Bool :=
  match e.key, e.sep with
  | some key, some sep =>
    match w.findPage key with
    | some p =>
      match p.state, p.released with
      | .live, some r => r.version == e.version && r.images.get sep == some id
      | _, _ => false
    | none => false
  | _, _ => false

/-- The damage report's effect on one QUEUED or GATED entry that names the image (R120). -/
def Work.damageEntry (id : Nat) (e : Entry) (w : Work) : Work :=
  if w.releasedNames e id then
    w.modEntry e.number (fun x => Entry.withGates { x with acked := 0 } { x.gates with resupply := true })
  else w.freeEntry .now e.number

/-- The Scheduler's part of a damage report (R120), in the order the entries were created (log 45). -/
def Work.damageEntries (id : Nat) (w : Work) : Work :=
  w.each (Work.damageEntry id) (w.entries.filter (fun e => e.kind == .plate && e.image == some id && e.waiting))

/-- The Release Table's part of a damage report (R18, R19). -/
def Work.damagePage (r : ImageRec) (w : Work) : Work :=
  match w.findPage r.key with
  | none => w
  | some p =>
    if p.state == .live && (p.released.bind (fun x => x.images.get r.sep)) == some r.id then
      (w.modPage r.key (fun p =>
        { p with released := p.released.map (fun x => { x with resupply := x.resupply ||| SepSet.one r.sep }) })).toTitle r.key.title
        (.resupplyNeeded r.key r.sep p.releasedVersion)
    else
      match p.candidate with
      | some c =>
        if c.images.get r.sep == some r.id then
          let w := (w.lowerImage r.id).modPage r.key (fun p =>
            { p with candidate := some { c with images := c.images.put r.sep none, state := .collecting } })
          (if c.state == .complete then w.withdrawRelease r.key else w).toTitle r.key.title (.resupplyNeeded r.key r.sep c.version)
        else w
      | none => w

/-- An uncorrectable error in a SEALED image: DAMAGED, counted and flagged, and the damage handed on (R62, steps 1 to 3). -/
def Work.damageImage (r : ImageRec) (w : Work) : Work :=
  let w := (w.modImage r.id (fun x => { x with state := .damaged })).raiseError (fun e => { e with dramUncorrectable := true })
  (({ w with uncorrectable := bump w.uncorrectable } : Work).damageEntries r.id).damagePage r

/-- What ECC corrected is counted (R61). -/
def Work.countCorrected (n : Nat) (w : Work) : Work := { w with corrected := satAdd max32 w.corrected n }

/-! ### The return of an entry (R121) -/

/-- The released record of the page a PLATE entry carries, while the page is LIVE with the entry's version released. -/
def Work.releasedOf (w : Work) (e : Entry) : Option Released :=
  match e.key with
  | none => none
  | some key =>
    match w.findPage key with
    | none => none
    | some p =>
      match p.state, p.released with
      | .live, some r => if r.version == e.version then some r else none
      | _, _ => none

/-- The edition-site of a PLATE or WITHDRAW entry is CLOSED, or its edition RETIRING. -/
def Work.editionOver (w : Work) (e : Entry) : Bool :=
  match e.key with
  | none => false
  | some k => w.siteClosed k.title k.edition e.site || w.editionState k.title k.edition == some .retiring

/-- The entry is freed at its return (R121, step 1). -/
def Work.freedAtReturn (w : Work) (e : Entry) : Bool :=
  w.editionOver e || (e.kind == .plate && (w.releasedOf e).isNone)

/-- Steps 3 and 4 of R121: the gates evaluated afresh, the state by them, the want of the slot looked at. -/
def Work.requeue (n : Nat) (w : Work) : Work :=
  match w.findEntry n with
  | none => w
  | some e =>
    let w := w.modEntry n (fun x =>
      Entry.withGates { x with cause := none } (if x.kind == .plate then w.gatesOf x else .none))
    match e.slot with
    | some k => w.lookWant .now e.site k
    | none => w

/-- An entry returned to its queue by its Line Engine (R121). -/
def Work.returnEntry (n : Nat) (w : Work) : Work :=
  match w.findEntry n with
  | none => w
  | some e =>
    if w.freedAtReturn e then w.freeEntry .now n
    else
      match e.kind, e.image, e.sep with
      | .plate, some id, some sep =>
        if w.imageDamaged id then
          match (w.releasedOf e).bind (fun r => r.images.get sep) with
          | some other =>
            if other == id then (w.modEntry n (fun x => { x with acked := 0 })).requeue n
            else (w.swapEntry other e).requeue n
          | none => w.freeEntry .now n
        else w.requeue n
      | _, _, _ => w.requeue n

end Sys2Proof.Machine
end

