-- ==== Sys2Proof/Machine/ColourStore.lean ====
section
/-! DEFINITION. The Colour Target Store (chapter 5): loads and their distribution, holdings, measurements, colour holds. -/

namespace Sys2Proof.Machine

/-! ### Loads (R84 to R86) -/

/-- The distribution set of a load: the mask, and every site that waits for an older generation (R86). -/
def Work.distributionSet (w : Work) (k : SlotNo) (mask : SiteSet) : SiteSet :=
  mask ||| SiteSet.ofPred (fun s => w.hasTarget s k)

/-- A TARGET entry of a slot. -/
def Entry.targetOf (k : SlotNo) (e : Entry) : Bool := e.kind == .target && e.slot == some k

/-- The distribution in one site queue: older TARGET entries removed or aborted, one created at the new generation (R86). -/
def Work.distributeAt (c : ConfigWords) (k : SlotNo) (s : Site) (w : Work) : Work :=
  (w.dealWithAll c .mark .reloaded s (Entry.targetOf k)).createTarget s k

/-- The largest generation (R83). -/
def generationLimit : Nat := 65535

/-- A load taken (R85); its distribution goes from site to site in site order (log 42). -/
def Work.takeLoad (c : ConfigWords) (t : Title) (k : SlotNo) (mask : SiteSet) (name : List Byte) (patches : List Patch) (w : Work) : Work :=
  let set := w.distributionSet k mask
  let g := (w.slot k).generation + 1
  let w : Work := { w with slots := tput w.slots k { generation := g, name := name, patches := patches, loader := some t } }
  let w := w.each (Work.distributeAt c k) (SiteSet.toList set)
  (w.toTitle t (.targetResult k.val g .ok)).toDesk (.targetLoaded k g name t set)

/-- The first check of R84 that a load fails. -/
def Work.loadFault (w : Work) (k : SlotNo) (m : LoadMsg) : Option Result :=
  if (loadPatches m).isNone then some .badTarget
  else if (w.slot k).generation == generationLimit then some .slotExhausted
  else if Nat.blt w.freeRecords (SiteSet.count (w.distributionSet k m.mask)) then some .poolFull
  else none

/-- A TARGET_LOAD (R84, R85). A slot above 31 has no generation; its result carries 0 (log 19). -/
def Work.targetLoad (c : ConfigWords) (t : Title) (m : LoadMsg) (w : Work) : Work :=
  match slotOf m.slot with
  | none => w.toTitle t (.targetResult m.slot.toNat 0 .badSlot)
  | some k =>
    match w.loadFault k m with
    | some r => w.toTitle t (.targetResult k.val (w.slot k).generation r)
    | none => w.takeLoad c t k m.mask m.name ((loadPatches m).getD [])

/-! ### Colour holds (R97, R98) -/

/-- A colour hold cleared: the record reset, the COLOUR gate removed, COLOUR_CLEARED to the desk (R98). -/
def Work.clearHold (s : Site) (k : SlotNo) (cause : ClearCause) (w : Work) : Work :=
  ((w.setCheck s k .reset).colourGate s k false).toDesk (.colourCleared s k cause)

/-- A colour hold set (R97). -/
def Work.setHold (s : Site) (k : SlotNo) (w : Work) : Work :=
  let r := w.check s k
  let g := w.holding s k
  let w := ((w.setCheck s k { r with hold := true, holdGeneration := g }).colourGate s k true).toDesk
    (.colourHold s k g r.outCount r.lastWorst)
  { w with attention := { w.attention with colourHold := true } }

/-! ### Holdings (R88 to R91) -/

/-- A holding raised to g (R90). -/
def Work.raiseHolding (s : Site) (k : SlotNo) (g : Nat) (w : Work) : Work :=
  let r := w.check s k
  let w := w.setHolding s k g
  let w :=
    if r.hold then if Nat.blt r.holdGeneration g then w.clearHold s k .targetHeld else w
    else w.setCheck s k .reset
  w.holdingRaised s k g

/-- The store drops a TARGET_HELD: generation 0 or above the slot's (R89). -/
def Work.heldStray (w : Work) (k : SlotNo) (g : Nat) : Bool := g == 0 || Nat.blt (w.slot k).generation g

/-- A TARGET_HELD that names a slot, as the store takes it (R89). -/
def Work.storeHeld (s : Site) (k : SlotNo) (g : Nat) (w : Work) : Work :=
  if w.heldStray k g then w.modSiteCounters s (fun x => { x with strayTargets := bump x.strayTargets })
  else if Nat.blt (w.holding s k) g then w.raiseHolding s k g
  else w

/-- A TARGET_MISSING refusal: the holding is cleared (R91). -/
def Work.clearHolding (s : Site) (k : SlotNo) (w : Work) : Work := (w.setHolding s k 0).holdingCleared s k

/-! ### Measurements (R93 to R97) -/

/-- A reading: NO_READING or a value (R189). -/
def readingOf (h : BitVec 16) : Option Nat := if h == 0xFFFF#16 then none else some h.toNat

/-- The readings of a MEASURE: the first `count` halves of its reading words. -/
def readingsOf (count : Nat) (halves : List (BitVec 16)) : List (Option Nat) := (halves.take count).map readingOf

/-- Some reading is a value above 4000 (R93, order 1). -/
def readingsBad (rs : List (Option Nat)) : Bool :=
  rs.any (fun r => match r with
    | some v => Nat.blt 4000 v
    | none => false)

/-- The absolute difference of two densities. -/
def distance (x y : Nat) : Nat := (x - y) + (y - x)

/-- The numeric deviations of a report with the tolerances of their patches, in patch order (R94). -/
def deviations : List (Option Nat) → List Patch → List (Nat × Nat)
  | some v :: rs, p :: ps => (distance v p.aim, p.tolerance) :: deviations rs ps
  | none :: rs, _ :: ps => deviations rs ps
  | _, _ => []

/-- The greatest numeric deviation, or NO_READING (R94). -/
def worstOf (ds : List (Nat × Nat)) : Option Nat :=
  ds.foldl (fun m d => match m with
    | none => some d.1
    | some x => some (max x d.1)) none

/-- The greater of two worst deviations, a number preferred to NO_READING (R94). -/
def worse : Option Nat → Option Nat → Option Nat
  | none, y => y
  | x, none => x
  | some x, some y => some (max x y)

/-- The largest sum of squared deviations: 2^48 − 1 (R92). -/
def squaresLimit : Nat := 281474976710655

/-- The sum of squares after some deviations, saturating (R95). -/
def addSquares (ds : List (Nat × Nat)) (sum : Nat) : Nat := ds.foldl (fun a d => satAdd squaresLimit a (d.1 * d.1)) sum

/-- A deviation exceeds its tolerance (R96). -/
def isOut (ds : List (Nat × Nat)) : Bool := ds.any (fun d => Nat.blt d.2 d.1)

/-- The consecutive-OUT count after a report (R96). -/
def outCountAfter (ds : List (Nat × Nat)) (n : Nat) : Nat := if isOut ds then satAdd 7 n 1 else if ds.isEmpty then n else 0

/-- The colour check record after a report (R94 to R96). -/
def CheckRec.after (ds : List (Nat × Nat)) (r : CheckRec) : CheckRec :=
  { r with
    lastWorst := worstOf ds, sessionWorst := worse r.sessionWorst (worstOf ds), sumSquares := addSquares ds r.sumSquares,
    readings := satAdd max32 r.readings ds.length, outCount := outCountAfter ds r.outCount }

/-- A report that passes R93 evaluated (R94 to R97). -/
def Work.evaluate (c : ConfigWords) (s : Site) (k : SlotNo) (readings : List (Option Nat)) (w : Work) : Work :=
  let ds := deviations readings (w.slot k).patches
  let r := (w.check s k).after ds
  let w := w.setCheck s k r
  if isOut ds && Nat.ble (cfg c .outLimit) r.outCount && !r.hold then w.setHold s k else w

/-- A MEASURE is stale: the site holds nothing of the slot, or another generation than the frame's or the slot's (R93, orders 2 to
4). -/
def Work.measureStale (w : Work) (s : Site) (k : SlotNo) (g : Nat) : Bool :=
  w.holding s k == 0 || w.holding s k != g || g != (w.slot k).generation

/-- The stale measurement counter rises (R93). -/
def Work.countStale (s : Site) (w : Work) : Work := w.modSiteCounters s (fun x => { x with staleMeasures := bump x.staleMeasures })

/-! ### Site restart (R100) -/

/-- One check record at a site restart: a hold is cleared with its alert, any other record is reset without. -/
def Work.restartCheck (s : Site) (k : SlotNo) (w : Work) : Work :=
  if (w.check s k).hold then w.clearHold s k .siteRestart else w.setCheck s k .reset

/-- The store's part of a site restart (R100). -/
def Work.restartColour (s : Site) (w : Work) : Work :=
  let w := w.each (Work.restartCheck s) allSlots
  { w with holdings := tput w.holdings s (Vector.replicate 32 0) }

end Sys2Proof.Machine
end

