-- ==== Sys2Proof/Machine/Checksums.lean ====
section
/-! DEFINITION. The two checksums (R190) and the TRAIN pattern generator (R189). -/

namespace Sys2Proof.Machine

/-- The bits of a byte, most significant first. -/
def bitsHigh (b : Byte) : List Bool := [7, 6, 5, 4, 3, 2, 1, 0].map (fun i => b.getLsbD i)

/-- The bits of a byte, least significant first. -/
def bitsLow (b : Byte) : List Bool := [0, 1, 2, 3, 4, 5, 6, 7].map (fun i => b.getLsbD i)

def crc16Bit (r : BitVec 16) (bit : Bool) : BitVec 16 :=
  if r.getLsbD 15 != bit then (r <<< 1) ^^^ 0x1021#16 else r <<< 1

def crc16Byte (r : BitVec 16) (b : Byte) : BitVec 16 := (bitsHigh b).foldl crc16Bit r

/-- The CRC-16 over a run of bytes (R190). -/
def crc16 (bytes : List Byte) : BitVec 16 := bytes.foldl crc16Byte 0xFFFF#16

def crc32Bit (r : Word) (bit : Bool) : Word :=
  if r.getLsbD 0 != bit then (r >>> 1) ^^^ 0xEDB88320#32 else r >>> 1

def crc32Byte (r : Word) (b : Byte) : Word := (bitsLow b).foldl crc32Bit r

/-- The CRC-32 register advanced over payload bytes in order (R37, R190). -/
def crc32Advance (r : Word) (bytes : List Byte) : Word := bytes.foldl crc32Byte r

/-- The value of a CRC-32 register at the end: the register inverted (R190). -/
def crc32Value (r : Word) : Word := ~~~r

/-- The bytes of a word from bits 31 to 24 down. -/
def wordBytes (w : Word) : List Byte :=
  [w.extractLsb' 24 8, w.extractLsb' 16 8, w.extractLsb' 8 8, w.extractLsb' 0 8]

/-- The CRC-16 register advanced over a word's bytes (R190). -/
def crc16Word (r : BitVec 16) (w : Word) : BitVec 16 := (wordBytes w).foldl crc16Byte r

/-! The generator: stage 1 is bit 0 and stage 31, the output, is bit 30; the feedback is stage 31 xor stage 28 (R189, log 16). -/

/-- The generator after one bit. -/
def prbsShift (g : BitVec 31) : BitVec 31 :=
  (g <<< 1) ||| (if g.getLsbD 30 != g.getLsbD 27 then 1#31 else 0#31)

/-- The generator after a number of bits. -/
def prbsRun : Nat → BitVec 31 → BitVec 31
  | 0, g => g
  | n + 1, g => prbsRun n (prbsShift g)

/-- The next 32 output bits, the first in bit 31. -/
def prbsWord (g : BitVec 31) : Word :=
  (g.setWidth 32 <<< 1) ||| (if g.getLsbD 30 != g.getLsbD 27 then 1#32 else 0#32)

/-- The generator after a pattern word. -/
def prbsNext (g : BitVec 31) : BitVec 31 := prbsRun 32 g

/-- The generator that a received word fixes: the one whose next output follows the word's last 31 bits (R152, log 16). -/
def prbsLoad (w : Word) : BitVec 31 := prbsRun 31 (w.setWidth 31)

/-- The generator's starting value: all ones (R151, R189). -/
def prbsStart : BitVec 31 := 0x7FFFFFFF#31

end Sys2Proof.Machine
end

