-- ==== Sys2Proof/Machine/Qualifier.lean ====
section
/-! DEFINITION. The Line Qualifiers (chapter 8): training, the pattern checker, the in-service window, the line counters and the TRAIN
transmitter. -/

namespace Sys2Proof.Machine

/-- Transfers run and frames are taken: the level is UP or DEGRADED (R150). -/
def Qualifier.inService (q : Qualifier) : Bool := q.level == .up || q.level == .degraded

/-! ### Training (R151, R156) -/

/-- A training attempt begins (R151); a TRAIN frame under way is cut off (log 51), and the checker's generator is empty, so that the first
word never matches (log 16). -/
def Qualifier.beginAttempt (n : Nat) (q : Qualifier) : Qualifier :=
  { q with
    attempt := n, counters := { q.counters with attempts := bump q.counters.attempts }, checker := .search, periods := 0,
    matchRun := 0, confirm := 0, identical := 0, gen := none, lastWord := none, txGen := prbsStart, txPos := 0, txCrc := 0xFFFF#16 }

/-- Training begins: the timer stopped, the flags cleared, TRAINING, attempt 1 (R151). -/
def Qualifier.trained (q : Qualifier) : Qualifier :=
  { q with tRetry := none, retrainPending := false, windowFrames := 0, windowBad := 0, level := .training }.beginAttempt 1

/-- Training begins with its LINE_STATE alert (R150, R151). -/
def Work.beginTraining (cause : TrainingCause) (s : Site) (w : Work) : Work :=
  (w.modQual s Qualifier.trained).toDesk (.lineTraining s cause)

/-- Training ends with level UP or DEGRADED, and the in-service watch begins (R156); a TRAIN frame under way is cut off (log 51). -/
def Work.trainingPassed (degraded : Bool) (s : Site) (w : Work) : Work :=
  let q := w.qual s
  (w.setQual s { q with
      checker := .off, windowFrames := 0, windowBad := 0, receiver := .reset,
      level := if degraded then .degraded else .up }).toDesk
    (.lineInService s degraded q.attempt q.verdict.errors)

/-- Training ends in DOWN: alert, LINE_DOWN attention, T_retry started (R150, R156, R160). -/
def Work.trainingDown (c : ConfigWords) (s : Site) (w : Work) : Work :=
  let q := w.qual s
  let w := (w.setQual s { q with checker := .off, level := .down, tRetry := some (cfg c .tRetry) }).toDesk (.lineDown s q.verdict)
  { w with attention := { w.attention with lineDown := true } }

/-- The last verdict recorded (R154). -/
def Qualifier.judged (v : Verdict) (errors : Nat) (q : Qualifier) : Qualifier := { q with verdict := { verdict := v, errors := errors } }

/-- An attempt failed with NO_LOCK or ERRORS: the next begins, or training ends in DOWN after the fourth (R151). -/
def Work.attemptFailed (c : ConfigWords) (v : Verdict) (errors : Nat) (s : Site) (w : Work) : Work :=
  let q := (w.qual s).judged v errors
  if Nat.blt q.attempt 4 then w.setQual s (q.beginAttempt (q.attempt + 1)) else (w.setQual s q).trainingDown c s

/-! ### The checker (R152, R153, R155) -/

/-- Largest value of the words counter, 2^24, and of the errors counter, 2^24 + 255 (R163). -/
def wordsLimit : Nat := 16777216

def errorsLimit : Nat := 16777471

/-- The measured error count: the errors counter less the preload (R154). -/
def measuredErrors (c : ConfigWords) (q : Qualifier) : Nat := q.counters.errors - cfg c .preload

/-- The measurement window has ended (R153). -/
def windowEnded (c : ConfigWords) (q : Qualifier) : Bool :=
  q.checker == .measure
    && (if cfg c .limitSelection == 0 then Nat.ble (cfg c .wordLimit) q.counters.words
        else Nat.ble (cfg c .errorLimit) (measuredErrors c q) || Nat.ble wordsLimit q.counters.words)

/-- The word periods of an attempt before MEASURE (R152). -/
def periodLimit : Nat := 65536

/-- The attempt has run out of word periods without entering MEASURE (R152). -/
def Qualifier.lockOverdue (q : Qualifier) : Bool :=
  (q.checker == .search || q.checker == .locked) && Nat.ble periodLimit q.periods

/-- The attempt has met 256 identical words in a row (R155). -/
def Qualifier.stuck (q : Qualifier) : Bool := q.checker != .off && Nat.ble 256 q.identical

/-- The generator's next output agrees with the word received. -/
def Qualifier.matches (received : Option Word) (q : Qualifier) : Bool :=
  match q.gen, received with
  | some g, some w => prbsWord g == w
  | _, _ => false

/-- The generator loaded afresh from a word, if there is one (R152). -/
def Qualifier.reload (received : Option Word) (q : Qualifier) : Qualifier :=
  match received with
  | some w => { q with gen := some (prbsLoad w) }
  | none => q

/-- The generator after one more output. -/
def Qualifier.runOn (q : Qualifier) : Qualifier := { q with gen := q.gen.map prbsNext }

/-- A word period in SEARCH (R152). -/
def Qualifier.search (received : Option Word) (q : Qualifier) : Qualifier :=
  if q.matches received then
    if q.matchRun + 1 == 64 then { q.runOn with matchRun := 64, checker := .locked, confirm := 0 }
    else { q.runOn with matchRun := q.matchRun + 1 }
  else { q.reload received with matchRun := 0 }

/-- MEASURE entered: the words counter at 0, the errors counter at the preload (R153). -/
def Qualifier.enterMeasure (c : ConfigWords) (q : Qualifier) : Qualifier :=
  { q with checker := .measure, confirm := 1024, counters := { q.counters with words := 0, errors := cfg c .preload } }

/-- A word period in LOCKED (R152). -/
def Qualifier.locked (c : ConfigWords) (received : Option Word) (q : Qualifier) : Qualifier :=
  if q.matches received then
    if q.confirm + 1 == 1024 then q.runOn.enterMeasure c else { q.runOn with confirm := q.confirm + 1 }
  else
    { q.reload received with
      checker := .search, matchRun := 0, counters := { q.counters with lockLosses := bump q.counters.lockLosses } }

/-- A word period in MEASURE (R153). -/
def Qualifier.measure (received : Option Word) (q : Qualifier) : Qualifier :=
  { q.runOn with
    counters := { q.counters with
      words := satAdd wordsLimit q.counters.words 1,
      errors := satAdd errorsLimit q.counters.errors (if q.matches received then 0 else 1) } }

/-- The identical run and the word before, after a word period (R155). -/
def Qualifier.compareWords (received : Option Word) (q : Qualifier) : Qualifier :=
  match received with
  | none => { q with identical := 0 }
  | some w => { q with identical := if q.lastWord == some w then satAdd 256 q.identical 1 else 0, lastWord := some w }

/-- A word period of the checker (R152, R153, R155). -/
def Qualifier.checkWord (c : ConfigWords) (received : Option Word) (q : Qualifier) : Qualifier :=
  let q := q.compareWords received
  match q.checker with
  | .off => q
  | .search => { q.search received with periods := q.periods + 1 }
  | .locked => { q.locked c received with periods := q.periods + 1 }
  | .measure => q.measure received

/-- The checker waits for the end of the attempt to be taken: nothing more is compared (log 17). -/
def attemptOver (c : ConfigWords) (q : Qualifier) : Bool := q.lockOverdue || q.stuck || windowEnded c q

/-! ### The TRAIN transmitter (R151, R189) -/

/-- The sync word of a frame (R189). -/
def syncWord : Word := 0xB4E1D22D#32

/-- The header of a TRAIN frame: type 0x06, tag 0, 256 body words (R189). -/
def trainHeader : Word := 0x06000100#32

/-- The word the transmitter sends at its place in the TRAIN frame. -/
def Qualifier.trainWord (q : Qualifier) : Word :=
  if q.txPos == 0 then syncWord
  else if q.txPos == 1 then trainHeader
  else if Nat.ble q.txPos 257 then prbsWord q.txGen
  else q.txCrc.setWidth 32

/-- The transmitter after a word: sync, header, 256 pattern words, CRC word, and again (R189). -/
def Qualifier.sendWord (q : Qualifier) : Qualifier :=
  if q.txPos == 0 then { q with txPos := 1, txCrc := 0xFFFF#16 }
  else if q.txPos == 1 then { q with txPos := 2, txCrc := crc16Word q.txCrc q.trainWord }
  else if Nat.ble q.txPos 257 then
    { q with txPos := q.txPos + 1, txCrc := crc16Word q.txCrc q.trainWord, txGen := prbsNext q.txGen }
  else { q with txPos := 0 }

/-! ### In service (R157) and the counters (R163, R164) -/

/-- Frames of an in-service window (R157). -/
def windowSize : Nat := 256

/-- A window of 256 frames closed (R157). -/
def Qualifier.closeWindow (q : Qualifier) : Qualifier :=
  if q.windowFrames == windowSize then { q with windowFrames := 0, windowBad := 0 } else q

/-- A frame that is not bad counted in the window (R157). -/
def Qualifier.goodFrame (q : Qualifier) : Qualifier := { q with windowFrames := q.windowFrames + 1 }.closeWindow

/-- A bad frame counted (R157); the window closes after the comparison with the threshold. -/
def Qualifier.badFrame (q : Qualifier) : Qualifier :=
  { q with
    windowFrames := q.windowFrames + 1, windowBad := q.windowBad + 1,
    counters := { q.counters with badFrames := bump q.counters.badFrames } }

/-- The line reset's effect on the qualifier before training: counters, T_retry, retrain pending, window counts (R162, steps 2 and
4). -/
def Qualifier.lineReset (q : Qualifier) : Qualifier :=
  { q with counters := .zero, tRetry := none, retrainPending := false, windowFrames := 0, windowBad := 0 }

end Sys2Proof.Machine
end

