-- ==== Sys2Proof/Machine/LineEngine.lean ====
section
/-! DEFINITION. The Line Engines (chapter 7): hand-over, band reads, answers, timers, aborts, line failure and site restart. -/

namespace Sys2Proof.Machine

/-! ### The current entry -/

/-- The entry the engine carries: the entry of its site's queue with the number it holds (R127). -/
def Work.current (w : Work) (s : Site) : Option Entry :=
  match (w.engine s).current with
  | some n => w.entries.find? (fun e => e.number == n && e.site == s)
  | none => none

/-- The bands and bytes stored of an entry's image; 0 when the entry has none (R132). -/
def Work.imageBands (w : Work) (e : Entry) : Nat :=
  match e.image.bind w.findImage with
  | some r => r.bandsStored
  | none => 0

def Work.imageBytes (w : Work) (e : Entry) : Nat :=
  match e.image.bind w.findImage with
  | some r => r.bytesStored
  | none => 0

/-- The version a site holds of an entry's page, 0 when the page has no record (R132). -/
def Work.heldVersion (w : Work) (e : Entry) : Nat :=
  match e.key.bind w.findPage with
  | some p => (p.site e.site).held
  | none => 0

def Work.setEntryState (n : Nat) (st : EntryState) (w : Work) : Work := w.modEntry n (fun e => { e with state := st })

def Work.setAcked (n : Nat) (acked : Nat) (w : Work) : Work := w.modEntry n (fun e => { e with acked := acked })

/-! ### Frames (R131, R132) -/

/-- PLATE_OPEN as R132 builds it. -/
def Work.openFrame (w : Work) (tag : Nat) (e : Entry) (key : PageKey) (sep : Sep) (slot : SlotNo) : OutFrame :=
  .plateOpen tag key sep e.version slot e.generation (w.imageBands e) (w.imageBytes e) (Nat.blt 0 (w.heldVersion e)) e.acked

/-- The frame a transfer of an entry opens with, and sends again at an expiry (R131, R141, R142). -/
def Work.firstFrame (w : Work) (tag : Nat) (e : Entry) : List OutFrame :=
  match e.kind, e.key, e.sep, e.slot with
  | .plate, some key, some sep, some slot => [w.openFrame tag e key sep slot]
  | .target, _, _, some slot => [.targetSet tag slot e.generation (w.slot slot).name (w.slot slot).patches]
  | .withdraw, some key, _, _ => [.pageWithdraw tag key e.version]
  | _, _, _, _ => []

def Engine.send (fs : List OutFrame) (e : Engine) : Engine := { e with tx := e.tx ++ fs }

/-- The entry's first frame sent, again or for the first time. -/
def Work.sendFirst (s : Site) (e : Entry) (w : Work) : Work :=
  w.modEngine s (Engine.send (w.firstFrame (w.engine s).tag e))

/-! ### Band reads (R134) -/

/-- The window: W while the line is UP, 1 while it is DEGRADED (R134). -/
def Work.window (c : ConfigWords) (w : Work) (s : Site) : Nat := if (w.qual s).level == .degraded then 1 else cfg c .window

/-- A band frame of the transfer waits or is leaving the line. -/
def Engine.bandPending (e : Engine) : Bool :=
  e.tx.any (fun f => match f with
    | .band tag _ _ => tag == e.tag
    | _ => false)

/-- A band read asked for (R134). -/
def Engine.ask (image : Nat) (e : Engine) : Engine :=
  { e with
    reads := e.reads ++ [{ image := image, band := e.nextBand, use := .live }], readOutstanding := some e.nextBand,
    nextBand := e.nextBand + 1 }

/-- The decision of R134 on one line: DRAINING once every band has left, T_ack running on (log 50), a further read while the window is
open. -/
def Work.pump (c : ConfigWords) (s : Site) (w : Work) : Work :=
  let e := w.engine s
  match e.state, w.current s with
  | .sending, some x =>
    match x.kind, x.image with
    | .plate, some image =>
      if e.readOutstanding.isSome then w
      else if e.nextBand == w.imageBands x then
        if e.bandPending then w else w.setEngine s { e with state := .draining }
      else if Nat.blt e.nextBand (w.imageBands x) && Nat.blt (e.nextBand - x.acked) (w.window c s) then w.setEngine s (e.ask image)
      else w
    | _, _ => w
  | _, _ => w

/-- The decision of R134 on every line. -/
def Work.pumpAll (c : ConfigWords) (w : Work) : Work := w.each (Work.pump c) allSites

/-! ### Entering states -/

/-- Both timers stopped, the answer to any read outstanding dropped (R136, R137, R147); the frames that wait stay, bands not begun among them
(log 13). -/
def Engine.stopped (e : Engine) : Engine := { e.dropReads with tAck := none, tConf := none }

/-- The machine in IDLE without an entry (R128). -/
def Engine.idled (e : Engine) : Engine := { e.stopped with state := .idle, current := none }

def Work.enterIdle (s : Site) (w : Work) : Work := w.modEngine s Engine.idled

/-- CONFIRMING entered: T_ack stopped, T_conf started, the entry CONFIRMING (R133, R135); the answers to the reads asked are dropped, DAMAGED
or not, though the same transfer come back to SENDING (log 48). -/
def Work.enterConfirming (c : ConfigWords) (s : Site) (n : Nat) (w : Work) : Work :=
  (w.modEngine s (fun e => { e.dropReads with state := .confirming, tAck := none, tConf := some (cfg c .tConf) })).setEntryState n
    .confirming

/-! ### Line failure (R147) -/

/-- What a line failure does with the current entry (R147). -/
def Work.failEntry (e : Entry) (w : Work) : Work :=
  match e.state with
  | .aborting =>
    if e.cause == some .damaged then (w.setAcked e.number 0).returnEntry e.number else w.freeEntry .now e.number
  | .queued | .gated | .active | .confirming => w.returnEntry e.number

/-- The engine after a line failure; the frame in transmission is finished (R128, R147, log 13). -/
def Engine.failed (counted : Bool) (e : Engine) : Engine :=
  { e.idled with
    expiry := 0, tx := e.tx.take 1, lineFailures := if counted then bump e.lineFailures else e.lineFailures }

/-- The qualifier's part of a line failure (R159). -/
def Work.qualifierFailed (cause : TrainingCause) (s : Site) (w : Work) : Work :=
  if (w.qual s).inService && cause != .lineReset then w.beginTraining cause s else w

/-- A line failure (R147). -/
def Work.lineFailure (cause : TrainingCause) (s : Site) (w : Work) : Work :=
  let w := match w.current s with
    | some e => w.failEntry e
    | none => w
  (w.modEngine s (Engine.failed (cause != .lineReset))).qualifierFailed cause s

/-- A protocol error is a line failure with cause PROTOCOL (R130). -/
def Work.protocolError (s : Site) (w : Work) : Work := w.lineFailure .protocol s

/-! ### Aborts (R144 to R146) -/

/-- The end of an abort (R145). -/
def Work.abortEnds (s : Site) (e : Entry) (w : Work) : Work := (w.failEntry e).enterIdle s

/-! ### Hand-over (R122, R123, R131) -/

/-- A plate of the other title that goes first: its deadline is within the tie window of the first entry's (R123). -/
def Entry.withinTie (tie : Nat) (first e : Entry) : Bool :=
  e.kind == .plate
    && (match first.key, e.key, first.deadline, e.deadline with
        | some k, some k', some d, some d' => k'.title != k.title && Nat.ble d' (d + tie)
        | _, _, _, _ => false)

/-- The entry's title is the last title started. -/
def Entry.lastStarted (last : Option Title) (e : Entry) : Bool :=
  match last, e.key with
  | some t, some k => k.title == t
  | _, _ => false

/-- The title arbiter's choice among the QUEUED entries in queue order (R123). -/
def arbiterChoice (tie : Nat) (last : Option Title) (queued : List Entry) : Option Entry :=
  match queued with
  | [] => none
  | e :: _ =>
    if e.kind == .plate && e.lastStarted last then
      match queued.find? (e.withinTie tie) with
      | some x => some x
      | none => some e
    else some e

/-- The engine at a hand-over (R131). Next band and sent mark are set for every kind (log 46). -/
def Engine.handed (e : Entry) (g : Engine) : Engine :=
  { g.dropReads with
    state := if e.kind == .plate then .opening else .sending, current := some e.number, counter := (g.counter + 1) % 256,
    tag := (g.counter + 1) % 256, expiry := 0, readOutstanding := none, nextBand := e.acked, sentMark := e.acked }

/-- The arbiter records the title of a PLATE (R123). -/
def Work.recordTitle (s : Site) (e : Entry) (w : Work) : Work :=
  match e.kind, e.key with
  | .plate, some k => { w with arbiters := tput w.arbiters s (some k.title) }
  | _, _ => w

/-- An entry handed to its line (R122, R131). -/
def Work.handEntry (s : Site) (e : Entry) (w : Work) : Work :=
  (((w.setEntryState e.number .active).modEngine s (Engine.handed e)).recordTitle s e).sendFirst s e

/-- The line can take an entry: in service, its machine IDLE, and no retrain owed first (R122, R128, log 26). -/
def Work.canTake (w : Work) (s : Site) : Bool :=
  (w.qual s).inService && (w.engine s).state == .idle && !((w.qual s).level == .degraded && (w.qual s).retrainPending)

/-- A look for a hand-over (R122). -/
def Work.handOver (c : ConfigWords) (s : Site) (w : Work) : Work :=
  if w.canTake s then
    match arbiterChoice (cfg c .tieWindow) (tget w.arbiters s) ((w.queue s).filter (fun e => e.state == .queued)) with
    | some e => w.handEntry s e
    | none => w
  else w

/-! ### Frames leaving the line (R128, R131, R141, R142, R144) -/

/-- A TARGET_SET or PAGE_WITHDRAW of the transfer has left the line. -/
def Work.shortFrameLeft (c : ConfigWords) (s : Site) (w : Work) : Work :=
  match (w.engine s).state, w.current s with
  | .sending, some x =>
    if x.state == .aborting then w.modEngine s (fun e => { e with state := .aborting, tAck := some (cfg c .tAck) })
    else w.enterConfirming c s x.number
  | .confirming, some _ => w.modEngine s (fun e => { e with tConf := some (cfg c .tConf) })
  | _, _ => w

/-- What follows when a frame has left the line. -/
def Work.frameLeft (c : ConfigWords) (s : Site) (f : OutFrame) (w : Work) : Work :=
  let e := w.engine s
  match f with
  | .plateOpen tag _ _ _ _ _ _ _ _ _ =>
    if tag == e.tag && e.state == .opening then w.setEngine s { e with tAck := some (cfg c .tAck) } else w
  | .targetSet tag _ _ _ _ | .pageWithdraw tag _ _ => if tag == e.tag then w.shortFrameLeft c s else w
  | .band _ _ _ => w.pump c s
  | .plateAbort _ _ _ _ => w

/-! ### Answers to band reads (R60, R134, R146) -/

/-- The engine after a read's answer came: the oldest read is done (log 12). -/
def Engine.answered (rest : List BandRead) (e : Engine) : Engine :=
  { e with reads := rest, readOutstanding := if rest.isEmpty then none else e.readOutstanding }

/-- The machine is in SENDING or DRAINING. -/
def Engine.carriesBands (e : Engine) : Bool := e.state == .sending || e.state == .draining

/-- A payload answer is taken: the same transfer, and no go-back since the read was asked (R134). -/
def Engine.takes (r : BandRead) (e : Engine) : Bool := r.use == .live && e.carriesBands

/-- A DAMAGED answer is taken: the same transfer, a go-back or not (R134, R146, log 48). -/
def Engine.takesDamage (r : BandRead) (e : Engine) : Bool := r.use != .dropped && e.carriesBands

/-- A payload answer: BAND is sent, the sent mark follows (R134). -/
def Engine.sendBand (i : Nat) (payload : List Byte) (e : Engine) : Engine :=
  { e.send [.band e.tag i payload] with sentMark := max e.sentMark (i + 1) }

/-- A payload answer taken or dropped (R134). -/
def Work.payloadRead (s : Site) (r : BandRead) (payload : List Byte) (w : Work) : Work :=
  if (w.engine s).takes r then w.modEngine s (Engine.sendBand r.band payload) else w

/-- A DAMAGED answer: the engine aborts for damage, or the answer is dropped (R134, R146). -/
def Work.damagedRead (c : ConfigWords) (s : Site) (r : BandRead) (w : Work) : Work :=
  match w.current s with
  | some e => if (w.engine s).takesDamage r then w.abortEntry c .now .damaged e else w
  | none => w

/-- The Image Store's answer to a band read (R60 to R62); an image freed or not SEALED since gives none, and one whose id has been taken
again is read as the id now stands (log 12). -/
def Work.answerRead (c : ConfigWords) (m : List Host.Cell) (s : Site) (ecc : EccOutcome) (r : BandRead) (w : Work) : Work :=
  match w.findImage r.image with
  | none => w
  | some i =>
    match i.state with
    | .sealed =>
      let w := w.countCorrected ecc.corrected
      if ecc.uncorrectable then (w.damageImage i).damagedRead c s r
      else w.payloadRead s r (w.readBand m i r.band)
    | .damaged => w.damagedRead c s r
    | .filling | .overrun => w

/-- The oldest band read of a line is answered. -/
def Work.bandReadDone (c : ConfigWords) (m : List Host.Cell) (s : Site) (ecc : EccOutcome) (w : Work) : Work :=
  match (w.engine s).reads with
  | [] => w
  | r :: rest => ((w.modEngine s (Engine.answered rest)).answerRead c m s ecc r).pump c s

/-- A scrub read of an extent held by an image: only a SEALED image is read (R61, R63). -/
def Work.scrubImage (ecc : EccOutcome) (i : ImageRec) (w : Work) : Work :=
  match i.state with
  | .sealed => if ecc.uncorrectable then (w.countCorrected ecc.corrected).damageImage i else w.countCorrected ecc.corrected
  | .filling | .overrun | .damaged => w

/-- The image that holds the extent at the scrub position. -/
def Work.scrubHolder (w : Work) : Option ImageRec := (w.findExtent w.scrubPos).bind (fun x => w.findImage x.holder)

/-- The scrub position advanced, from the last extent to extent 0 (R63). -/
def Work.advanceScrub (w : Work) : Work := { w with scrubPos := if w.scrubPos + 1 < w.extentCount then w.scrubPos + 1 else 0 }

/-- The scrub at its position (R63): the extent of a SEALED image is read, any other passed by, and the position advances. -/
def Work.scrub (ecc : EccOutcome) (w : Work) : Work :=
  match w.scrubHolder with
  | none => w.advanceScrub
  | some i => (w.scrubImage ecc i).advanceScrub

/-! ### Inbound frames (R129) -/

/-- An inbound frame that is not bad: counted in the window, then taken; ignored while the line is not in service (R129, R157). -/
def Work.inbound (s : Site) (f : Work → Work) (w : Work) : Work :=
  if (w.qual s).inService then f (w.modQual s Qualifier.goodFrame) else w

/-- The stray frame counter rises (R129). -/
def Work.countStray (s : Site) (w : Work) : Work := w.modEngine s (fun e => { e with strayFrames := bump e.strayFrames })

/-- A tagged answer: stale in IDLE or with another tag, else taken for the current entry (R129). -/
def Work.answer (s : Site) (tag : Byte) (f : Entry → Work → Work) (w : Work) : Work :=
  if (w.engine s).state == .idle || (w.engine s).tag != tag.toNat then w.countStray s
  else
    match w.current s with
    | some e => f e w
    | none => w

/-- A tagged answer that belongs to PLATE transfers: any other kind of entry makes it a protocol error (R130). -/
def Work.plateAnswer (s : Site) (tag : Byte) (f : Entry → Work → Work) (w : Work) : Work :=
  w.answer s tag (fun e w => if e.kind == .plate then f e w else w.protocolError s)

/-- An OPEN_ACK with resume index r taken in OPENING (R133). -/
def Work.resumeAt (c : ConfigWords) (s : Site) (r : Nat) (e : Entry) (w : Work) : Work :=
  if Nat.blt e.acked r then w.protocolError s
  else
    let w := (w.setAcked e.number r).modEngine s (fun g => { g with nextBand := r, sentMark := r })
    if r == w.imageBands e then w.enterConfirming c s e.number
    else (w.modEngine s (fun g => { g with state := .sending, tAck := some (cfg c .tAck), expiry := 0 })).pump c s

/-- OPEN_ACK (R133). -/
def Work.openAck (c : ConfigWords) (s : Site) (tag : Byte) (r : Nat) (w : Work) : Work :=
  w.plateAnswer s tag (fun e w =>
    match (w.engine s).state with
    | .opening => w.resumeAt c s r e
    | .idle | .sending | .draining | .confirming | .aborting => w)

/-- A BAND_ACK that raises the acknowledged band count to n (R135). -/
def Work.ackBands (c : ConfigWords) (s : Site) (n : Nat) (e : Entry) (w : Work) : Work :=
  let w := (w.setAcked e.number n).modEngine s (fun g => { g with nextBand := max g.nextBand n, expiry := 0 })
  if n == w.imageBands e then w.enterConfirming c s e.number
  else (w.modEngine s (fun g => { g with tAck := some (cfg c .tAck) })).pump c s

/-- BAND_ACK (R135). -/
def Work.bandAck (c : ConfigWords) (s : Site) (tag : Byte) (n : Nat) (w : Work) : Work :=
  w.plateAnswer s tag (fun e w =>
    match (w.engine s).state with
    | .idle | .aborting => w
    | .opening | .sending | .draining | .confirming =>
      if Nat.blt (w.engine s).sentMark n then w.protocolError s
      else if Nat.ble n e.acked then w
      else w.ackBands c s n e)

/-- A plate complete (R136). -/
def Work.completePlate (s : Site) (e : Entry) (w : Work) : Work :=
  let w := w.modEngine s Engine.stopped
  let w := match e.key, e.sep with
    | some key, some sep => w.plateDelivered s key sep e.version
    | _, _ => w
  let w := if e.late then w.modSiteCounters s (fun x => { x with latePlates := bump x.latePlates }) else w
  (w.freeEntry .now e.number).enterIdle s

/-- PLATE_DONE (R136). -/
def Work.plateDone (s : Site) (tag : Byte) (w : Work) : Work :=
  w.plateAnswer s tag (fun e w =>
    match (w.engine s).state with
    | .confirming | .draining => w.completePlate s e
    | .opening => if e.acked == w.imageBands e then w.completePlate s e else w.protocolError s
    | .sending => w.protocolError s
    | .aborting => w.countStray s
    | .idle => w)

/-- PLATE_REFUSED reported to the title and to the desk (R138). -/
def Work.reportRefusal (s : Site) (e : Entry) (r : RefuseReason) (w : Work) : Work :=
  match e.key, e.sep with
  | some key, some sep => (w.toTitle key.title (.plateRefused s key sep e.version r)).toDesk (.plateRefused s key sep e.version r)
  | _, _ => w

/-- An entry removed after a refusal (R138). -/
def Work.removeRefused (s : Site) (e : Entry) (r : RefuseReason) (w : Work) : Work :=
  (w.freeEntry .now e.number).reportRefusal s e r

/-- A refusal counted: the entry returns the first time, and is removed the second (R138). -/
def Work.countRefusal (s : Site) (e : Entry) (r : RefuseReason) (w : Work) : Work :=
  if e.refusals == 0 then (w.modEntry e.number (fun x => { x with refusals := 1, acked := 0 })).returnEntry e.number
  else w.removeRefused s e r

/-- A TARGET_MISSING refusal (R137). -/
def Work.targetMissing (s : Site) (e : Entry) (w : Work) : Work :=
  let w := match e.slot with
    | some k => w.clearHolding s k
    | none => w
  if Nat.blt 0 e.generation then (w.setAcked e.number 0).returnEntry e.number else w.countRefusal s e .targetMissing

/-- A refusal by its reason (R137, R138). -/
def Work.refusal (s : Site) (e : Entry) (r : RefuseReason) (w : Work) : Work :=
  let w := w.modEngine s Engine.stopped
  (match r with
    | .targetMissing => w.targetMissing s e
    | .unreadable => w.countRefusal s e .unreadable
    | .editionUnknown => w.removeRefused s e .editionUnknown).enterIdle s

/-- PLATE_REFUSED (R130, R137, R138). -/
def Work.plateRefused (s : Site) (tag : Byte) (reason : Word) (w : Work) : Work :=
  w.plateAnswer s tag (fun e w =>
    match reasonOf reason with
    | none => w.protocolError s
    | some r => if (w.engine s).state == .aborting then w.countStray s else w.refusal s e r)

/-- ABORT_ACK (R130, R145): it ends the abort of a PLATE; taken outside ABORTING, or for another kind of entry, it is a protocol error
(section 7.9). -/
def Work.abortAck (s : Site) (tag : Byte) (w : Work) : Work :=
  w.answer s tag (fun e w =>
    if (w.engine s).state == .aborting && e.kind == .plate then w.abortEnds s e else w.protocolError s)

/-- A WITHDRAW complete (R140). -/
def Work.completeWithdraw (s : Site) (e : Entry) (w : Work) : Work :=
  let w := w.modEngine s Engine.stopped
  let w := match e.key with
    | some key => w.pageWithdrawn s key
    | none => w
  (w.freeEntry .now e.number).enterIdle s

/-- WITHDRAW_ACK (R130, R140); one that comes before PAGE_WITHDRAW has left the line is dropped (log 15). -/
def Work.withdrawAck (s : Site) (tag : Byte) (w : Work) : Work :=
  w.answer s tag (fun e w =>
    if e.kind == .withdraw then if (w.engine s).state == .confirming then w.completeWithdraw s e else w
    else w.protocolError s)

/-- The machine's part of a TARGET_HELD the store has taken (R139). -/
def Work.offerHeld (s : Site) (k : SlotNo) (g : Nat) (w : Work) : Work :=
  match w.current s with
  | none => w
  | some e =>
    if e.kind == .target && e.slot == some k then
      match (w.engine s).state with
      | .confirming => if e.generation == g then ((w.modEngine s Engine.stopped).freeEntry .now e.number).enterIdle s else w
      | .aborting => w.abortEnds s e
      | .idle | .opening | .sending | .draining => w
    else w

/-- TARGET_HELD (R89, R130, R139). -/
def Work.targetHeld (s : Site) (slot : Byte) (g : Nat) (w : Work) : Work :=
  match slotOf slot with
  | none => w.protocolError s
  | some k => if w.heldStray k g then w.storeHeld s k g else (w.storeHeld s k g).offerHeld s k g

/-- The body length of a MEASURE agrees with its reading count (R189). -/
def measureLengthOk (count : Nat) (halves : List (BitVec 16)) : Bool := halves.length == 2 * ((count + 1) / 2)

/-- MEASURE (R93, R130). -/
def Work.takeMeasure (c : ConfigWords) (s : Site) (slot count : Byte) (g : Nat) (halves : List (BitVec 16)) (w : Work) : Work :=
  match slotOf slot with
  | none => w.protocolError s
  | some k =>
    if !measureLengthOk count.toNat halves || readingsBad (readingsOf count.toNat halves) then w.protocolError s
    else if w.measureStale s k g then w.countStale s
    else if Nat.blt (w.slot k).patches.length count.toNat then w.protocolError s
    else w.evaluate c s k (readingsOf count.toNat halves)

/-- PRESS_RUN (R75). -/
def Work.runPress (s : Site) (title edition : Byte) (w : Work) : Work :=
  let stray := w.modSiteCounters s (fun x => { x with strayPressRuns := bump x.strayPressRuns })
  match titleOf title with
  | none => stray
  | some t =>
    let code := edition.toNat
    if w.editionState t code == some .retiring then stray
    else
      match w.editionSite t code s with
      | none => stray
      | some x =>
        match x.state with
        | .waiting | .ready | .late =>
          (((w.modEditionSite t code s (fun x => { x with state := .running })).disarm t code s).toTitle t
            (.pressRun code s x.lateMark)).toDesk (.pressRun code s x.lateMark)
        | .running | .closed => w

/-- A site's queue emptied at its restart, without looks at wants (R148, step 2). -/
def Work.emptyQueue (s : Site) (w : Work) : Work := w.each (fun e => Work.freeEntry .skip e.number) (w.queue s)

/-- SITE_RESTART (R148, steps 1 to 5). -/
def Work.restartSite (s : Site) (w : Work) : Work :=
  ((((w.lineFailure .siteRestart s).emptyQueue s).restartColour s).restartPages s).toDesk (.siteRestart s)

/-! ### Timers (R141 to R143) -/

/-- Three expiries without an advance (R143). -/
def expiryLimit : Nat := 3

/-- The reads of the transfer after a go-back: their payloads will be dropped (R134, R141, log 48). -/
def Engine.goBack (e : Engine) : Engine :=
  { e with reads := e.reads.map (fun r => { r with use := if r.use == .live then .wentBack else r.use }) }

/-- The action of an expiry of T_ack below the third (R141). -/
def Work.retryTransfer (c : ConfigWords) (s : Site) (e : Entry) (w : Work) : Work :=
  match (w.engine s).state with
  | .opening => (w.sendFirst s e).modEngine s (fun g => { g with tAck := some (cfg c .tAck) })
  | .sending | .draining =>
    (w.modEngine s (fun g => { g.goBack with state := .sending, nextBand := e.acked, tAck := some (cfg c .tAck) })).pump c s
  | .idle | .confirming | .aborting => w

/-- An expiry counted, and the third one taken as a line failure (R143). -/
def Work.expired (s : Site) (f : Work → Work) (w : Work) : Work :=
  let w := w.modEngine s (fun g => { g with expiry := g.expiry + 1 })
  if Nat.ble expiryLimit (w.engine s).expiry then w.lineFailure .expiry s else f w

/-- Expiry of a running T_ack (R141). -/
def Work.tAckExpiry (c : ConfigWords) (s : Site) (w : Work) : Work :=
  match (w.engine s).tAck, w.current s with
  | some _, some e =>
    if (w.engine s).state == .aborting then w.abortEnds s e else w.expired s (fun w => w.retryTransfer c s e)
  | _, _ => w

/-- The action of an expiry of T_conf below the third (R142). -/
def Work.confirmAgain (s : Site) (e : Entry) (w : Work) : Work :=
  let w := (w.sendFirst s e).modEngine s (fun g => { g with tConf := none })
  if e.kind == .plate then (w.modEngine s (fun g => { g with state := .opening })).setEntryState e.number .active else w

/-- Expiry of a running T_conf (R142). -/
def Work.tConfExpiry (s : Site) (w : Work) : Work :=
  match (w.engine s).tConf, w.current s with
  | some _, some e => w.expired s (fun w => w.confirmAgain s e)
  | _, _ => w

/-! ### The qualifier's events (R157, R158, R161, R162) -/

/-- A bad frame in service (R157). -/
def Work.badFrame (c : ConfigWords) (s : Site) (w : Work) : Work :=
  if (w.qual s).inService then
    let w := w.modQual s Qualifier.badFrame
    if Nat.ble (cfg c .frameThreshold) (w.qual s).windowBad then w.lineFailure .frameErrors s else w.modQual s Qualifier.closeWindow
  else w

/-- Framing lost in service (R158). -/
def Work.framingLoss (s : Site) (w : Work) : Work :=
  if (w.qual s).inService then
    (w.modQual s (fun q => { q with counters := { q.counters with lockLosses := bump q.counters.lockLosses } })).lineFailure .framing s
  else w

/-- A line reset's steps 2 to 4 (R162). -/
def Work.clearLine (s : Site) (w : Work) : Work :=
  let w := (w.modQual s Qualifier.lineReset).modEngine s (fun e => { e with lineFailures := 0, strayFrames := 0 })
  { w with arbiters := tput w.arbiters s none }

/-- A line reset in RUN (R162). -/
def Work.lineReset (s : Site) (w : Work) : Work := ((w.lineFailure .lineReset s).clearLine s).beginTraining .lineReset s

/-- A desk retry of a line (R161): the effect and the result. -/
def Work.lineRetry (s : Site) (w : Work) : Work × Result :=
  match (w.qual s).level with
  | .down => (w.beginTraining .lineRetry s, .ok)
  | .degraded =>
    if (w.engine s).state == .idle then (w.beginTraining .lineRetry s, .ok)
    else (w.modQual s (fun q => { q with retrainPending := true }), .ok)
  | .up | .training => (w, .lineBusy)

/-- The training a retry left to the end of the transfer (R161). -/
def Work.pendingRetrain (s : Site) (w : Work) : Work :=
  if (w.qual s).retrainPending && (w.qual s).level == .degraded && (w.engine s).state == .idle then w.beginTraining .lineRetry s else w

/-- One word period of a training line: the checker judges the word received, and the transmitter sends a word unless frames begun or
waiting before the training are still to leave (R128, R151 to R155, log 47). -/
def Work.trainWord (c : ConfigWords) (s : Site) (received : Option Word) (w : Work) : Work :=
  let q := w.qual s
  if q.level == .training && !attemptOver c q then
    if (w.engine s).tx.isEmpty then
      (w.setQual s (q.sendWord.checkWord c received)).modEngine s (fun e => { e with lineOut := [q.trainWord] })
    else w.setQual s (q.checkWord c received)
  else w

/-- The end of a measurement window and its verdict (R154). -/
def Work.windowEnd (c : ConfigWords) (s : Site) (w : Work) : Work :=
  let q := w.qual s
  let n := measuredErrors c q
  if q.level == .training && windowEnded c q then
    if Nat.ble n (cfg c .tUp) then (w.setQual s (q.judged .up n)).trainingPassed false s
    else if Nat.ble n (cfg c .tDeg) then (w.setQual s (q.judged .degraded n)).trainingPassed true s
    else w.attemptFailed c .errors n s
  else w

/-- An attempt that ran out of word periods (R152); its measured error count is 0 (log 53). -/
def Work.noLock (c : ConfigWords) (s : Site) (w : Work) : Work :=
  let q := w.qual s
  if q.level == .training && q.lockOverdue then w.attemptFailed c .noLock 0 s else w

/-- An attempt that met 256 identical words: training ends in DOWN at once (R155); its measured error count is 0 (log 53). -/
def Work.attemptStuck (c : ConfigWords) (s : Site) (w : Work) : Work :=
  let q := w.qual s
  if q.level == .training && q.stuck then (w.setQual s (q.judged .stuck 0)).trainingDown c s else w

/-- Expiry of a running T_retry (R160). -/
def Work.tRetryExpiry (s : Site) (w : Work) : Work :=
  if (w.qual s).tRetry.isSome && (w.qual s).level == .down then w.beginTraining .retryTimer s else w

end Sys2Proof.Machine
end

