-- ==== Sys2Proof/Machine/Parsers.lean ====
section
/-! DEFINITION. The Submission Parsers (chapter 2). -/

namespace Sys2Proof.Machine

/-- The most bytes of a band payload (R37). -/
def bandLimit : Nat := 245760

/-- A SUBMIT_RESULT for an image or a refused IMAGE_BEGIN (R31). -/
def Work.submitResult (t : Title) (p : PendingResult) (w : Work) : Work :=
  w.toTitle t (.submitResult (some p.key) p.sepCode p.version p.result p.bands p.bytes)

/-- A SUBMIT_RESULT PROTOCOL (R31, R40). -/
def Work.submitProtocol (t : Title) (w : Work) : Work := w.toTitle t (.submitResult none 0 0 .protocol 0 0)

/-- The result of the open image with the counts reached. -/
def Parser.resultOf (p : Parser) (i : OpenImage) (r : Result) : PendingResult :=
  { result := r, key := i.key, sepCode := i.sep.index, version := i.version, bands := p.bandCounter, bytes := p.byteCount }

/-- The parser in DISCARD with a pending result; every other field is at its reset value (log 37). -/
def Parser.discarding (r : PendingResult) : Parser := { Parser.reset with state := .discard, result := some r }

/-- The open image rejected into DISCARD (R45). -/
def Work.rejectOpen (t : Title) (r : Result) (w : Work) : Work :=
  let p := w.parser t
  match p.state, p.image with
  | .opened, some i => (w.freeImage i.image).setParser t (.discarding (p.resultOf i r))
  | _, _ => w

/-- The open image discarded and its SUBMIT_RESULT appended; the parser is IDLE (R35, R41, R43, R48). -/
def Work.endOpen (t : Title) (i : OpenImage) (r : Result) (w : Work) : Work :=
  ((w.freeImage i.image).submitResult t ((w.parser t).resultOf i r)).setParser t .reset

/-- DISCARD ended: the pending result is sent and the parser is IDLE (R36, R44, R48). -/
def Work.endDiscard (t : Title) (w : Work) : Work :=
  match (w.parser t).result with
  | some r => (w.submitResult t r).setParser t .reset
  | none => w.setParser t .reset

/-- A kill of a page told to its title's parser (R46). -/
def Work.parserKilled (key : PageKey) (w : Work) : Work :=
  match (w.parser key.title).image with
  | some i => if i.key == key then w.rejectOpen key.title .pageKilled else w
  | none => w

/-- An edition become CLOSED told to its title's parser (R47). -/
def Work.parserClosed (t : Title) (code : Nat) (w : Work) : Work :=
  match (w.parser t).image with
  | some i => if i.key.edition == code then w.rejectOpen t .editionClosed else w
  | none => w

/-- A resync of the port (R48). -/
def Work.parserResync (t : Title) (w : Work) : Work :=
  match (w.parser t).state, (w.parser t).image with
  | .opened, some i => w.endOpen t i .resync
  | .discard, _ => w.endDiscard t
  | _, _ => w

/-! ### IMAGE_BEGIN -/

/-- The separation an image of a page may have: in range, and K for a MONO page (R32, check 5). -/
def separationFor (colour : Colour) (code : Byte) : Option Sep :=
  match sepOf code.toNat with
  | some sep => if colour == .mono && sep != .k then none else some sep
  | none => none

/-- Check 1 of R32. -/
def beginArgumentsOk (m : BeginMsg) : Bool :=
  editionOk m.edition.toNat && pageOk m.page.toNat && Nat.ble 1 m.bandCount.toNat && Nat.ble m.bandCount.toNat 1024
    && Nat.ble m.bandCount.toNat m.totalBytes.toNat && Nat.ble m.totalBytes.toNat (m.bandCount.toNat * bandLimit)

/-- The key an IMAGE_BEGIN carries, with the port's title. -/
def beginKey (t : Title) (m : BeginMsg) : PageKey := { title := t, edition := m.edition.toNat, page := m.page.toNat }

/-- The checks of R32 in their order: the refusal, or the separation and how the Release Table accepts the image. -/
def Work.beginChecks (t : Title) (m : BeginMsg) (w : Work) : Except Result (Sep × Acceptance) :=
  if !beginArgumentsOk m then .error .badArgument
  else
    match w.findPage (beginKey t m) with
    | none => .error .noPage
    | some p =>
      if p.state == .killed then .error .pageKilled
      else if w.editionState t m.edition.toNat == some .closed then .error .editionClosed
      else
        match separationFor p.colour m.separation with
        | none => .error .badSeparation
        | some sep =>
          if !w.imageFree then .error .storeFull
          else
            match p.beginAnswer sep m.version.toNat with
            | .error r => .error r
            | .ok a => .ok (sep, a)

/-- The parser open on an accepted image (R33, step 3). -/
def Parser.opened (id : Nat) (key : PageKey) (sep : Sep) (a : Acceptance) (m : BeginMsg) : Parser :=
  { Parser.reset with
    state := .opened, image := some { image := id, key := key, sep := sep, version := m.version.toNat }, acceptance := some a,
    declaredBands := m.bandCount.toNat, declaredBytes := m.totalBytes.toNat, storing := true }

/-- A refused IMAGE_BEGIN: DISCARD with the refusal as pending result (R34). -/
def Work.refuseBegin (t : Title) (m : BeginMsg) (r : Result) (w : Work) : Work :=
  w.setParser t (.discarding { result := r, key := beginKey t m, sepCode := m.separation.toNat, version := m.version.toNat, bands := 0,
                               bytes := 0 })

/-- An IMAGE_BEGIN taken in IDLE (R32, R33). -/
def Work.beginIdle (t : Title) (m : BeginMsg) (w : Work) : Work :=
  match w.beginChecks t m with
  | .error r => w.refuseBegin t m r
  | .ok (sep, a) =>
    match w.takeImage (beginKey t m) sep m.version.toNat m.bandCount.toNat with
    | none => w.refuseBegin t m .storeFull
    | some (id, w) =>
      (match a with
        | .new => w.newCandidate (beginKey t m) m.version.toNat
        | .fill | .resupply => w).setParser t (.opened id (beginKey t m) sep a m)

/-- An IMAGE_BEGIN: what is in progress on the parser ends first (R35, R36). -/
def Work.imageBegin (t : Title) (m : BeginMsg) (w : Work) : Work :=
  match (w.parser t).state, (w.parser t).image with
  | .opened, some i => (w.endOpen t i .incomplete).beginIdle t m
  | .discard, _ => (w.endDiscard t).beginIdle t m
  | _, _ => w.beginIdle t m

/-! ### BAND -/

/-- The first check of R37 that a band fails. -/
def Parser.bandFault (p : Parser) (mark : Nat) (size : Nat) : Option Result :=
  if mark != p.bandCounter % 16 then some .badBandSequence
  else if size == 0 then some .badArgument
  else if Nat.blt bandLimit size then some .bandTooLong
  else if p.bandCounter == p.declaredBands then some .bandCountMismatch
  else none

/-- A band counted (R37). -/
def Parser.counted (payload : List Byte) (p : Parser) : Parser :=
  { p with bandCounter := p.bandCounter + 1, byteCount := p.byteCount + payload.length, crc := crc32Advance p.crc payload }

/-- A BAND (R37 to R40): the answer is the address its stored form is written at, if the Image Store stores it. -/
def Work.takeBand (t : Title) (mark : Byte) (payload : List Byte) (w : Work) : Work × Option Nat :=
  let p := w.parser t
  match p.state, p.image with
  | .opened, some i =>
    match p.bandFault mark.toNat payload.length with
    | some r => (w.rejectOpen t r, none)
    | none =>
      let q := p.counted payload
      if p.storing then
        match w.placeBand i.image p.bandCounter payload.length with
        | (w, some a) => (w.setParser t q, some a)
        | (w, none) => (w.setParser t { q with storing := false }, none)
      else (w.setParser t q, none)
  | .discard, _ => (w, none)
  | _, _ => (w.submitProtocol t, none)

/-! ### IMAGE_END -/

/-- The first check of R41 that an image fails. -/
def Parser.endFault (p : Parser) (total : Nat) (crc : Word) : Option Result :=
  if p.bandCounter != p.declaredBands then some .bandCountMismatch
  else if p.byteCount != total || p.byteCount != p.declaredBytes then some .byteCountMismatch
  else if crc32Value p.crc != crc then some .checkFailed
  else none

/-- The Release Table's answer to the seal (R8, R20, R42). -/
def Work.attach (a : Option Acceptance) (i : OpenImage) (w : Work) : Option Work :=
  match a with
  | some .resupply => w.attachResupply i.image i.key i.sep i.version
  | _ => w.attachFill i.image i.key i.sep i.version

/-- A passing image of which every band was stored (R42). -/
def Work.sealOpen (t : Title) (i : OpenImage) (w : Work) : Work :=
  let p := w.parser t
  match w.attach p.acceptance i with
  | some w => (w.submitResult t (p.resultOf i .ok)).setParser t .reset
  | none => w.endOpen t i .staleVersion

/-- An IMAGE_END (R40, R41, R43, R44). -/
def Work.imageEnd (t : Title) (total : Nat) (crc : Word) (w : Work) : Work :=
  let p := w.parser t
  match p.state, p.image with
  | .opened, some i =>
    match p.endFault total crc with
    | some r => w.endOpen t i r
    | none => if p.storing then w.sealOpen t i else w.endOpen t i .overrun
  | .discard, _ => w.endDiscard t
  | _, _ => w.submitProtocol t

end Sys2Proof.Machine
end

