-- ==== Sys2Proof/Machine/Flags.lean ====
section
/-! DEFINITION. The flag and status words of the service window (R178, R184, R185) and the outputs that follow from flags: the attention
output and a title port's ready line. -/

namespace Sys2Proof.Machine

/-- A flag at a bit of a word. -/
def flagAt (i : Nat) (b : Bool) : Word := if b then 1#32 <<< i else 0#32

/-- The error report word at 0x020 (R178). -/
def ErrorReport.word (e : ErrorReport) : Word :=
  flagAt 0 e.stalledA ||| flagAt 1 e.stalledB ||| flagAt 2 e.stalledDesk ||| flagAt 3 e.configRefused ||| flagAt 4 e.dramUncorrectable
    ||| flagAt 5 e.lostA ||| flagAt 6 e.lostB ||| flagAt 7 e.lostDesk

/-- The attention word at 0x021, and the enables at 0x022 (R178). -/
def Attention.word (a : Attention) : Word := flagAt 0 a.error ||| flagAt 1 a.lineDown ||| flagAt 2 a.colourHold

/-- The enables a written word holds (R178, R185). -/
def Attention.ofWord (w : Word) : Attention := { error := w.getLsbD 0, lineDown := w.getLsbD 1, colourHold := w.getLsbD 2 }

def CommandStatus.code : CommandStatus → Nat
  | .none => 0
  | .accepted => 1
  | .refused => 2
  | .wrongPhase => 3
  | .badSite => 4
  | .unknown => 5

/-- The phase and status word at 0x010 (R178). -/
def ServiceRegs.statusWord (v : ServiceRegs) : Word :=
  flagAt 0 (v.phase == .run) ||| BitVec.ofNat 32 (v.status.code * 256)

/-- The attention output: some flag is raised whose enable is set (R185). -/
def attentionOutput (s : State) : Bool :=
  (s.work.attention.error && s.svc.enables.error) || (s.work.attention.lineDown && s.svc.enables.lineDown)
    || (s.work.attention.colourHold && s.svc.enables.colourHold)

/-- Words an inbound buffer holds: 8 KiB (R165). -/
def bufferLimit : Nat := 2048

/-- The ready line of a title port (R166). -/
def titleReady (s : State) (t : Title) : Bool :=
  s.svc.phase == .run && !(s.ports.get t).resyncIn && Nat.blt (s.ports.get t).buffer.length bufferLimit

/-- Where the assembler of a port stands (R165): read from the port state and the message store; hunting where the port is STALLED
(log 52). -/
def Assembler.position (a : Assembler) : Position :=
  match a.state with
  | .idle | .stalled => .hunting
  | .synced => if a.store.isEmpty then .between else .within a.store.length

end Sys2Proof.Machine
end

