-- ==== Sys2Proof/Machine/Formats.lean ====
section
/-! DEFINITION. Message, notice and frame formats (chapter 11): the inbound type table, the commands complete messages stand for, the
bodies and envelopes of notices, the reply data of queries, and the words of outbound line frames. -/

namespace Sys2Proof.Machine

/-! ### Numbers and codes (R187) -/

/-- A number in one, two, four or six bytes, most significant byte first. -/
def byte1 (n : Nat) : List Byte := [BitVec.ofNat 8 n]

def byte2 (n : Nat) : List Byte := [BitVec.ofNat 8 (n / 256), BitVec.ofNat 8 n]

def byte4 (n : Nat) : List Byte := byte2 (n / 65536) ++ byte2 n

def byte6 (n : Nat) : List Byte := byte2 (n / 4294967296) ++ byte4 n

def flagByte (b : Bool) : List Byte := if b then [1#8] else [0#8]

/-- A field that may be absent: a presence byte, then the field (R187). -/
def optional {α : Type} (f : α → List Byte) : Option α → List Byte
  | none => [0#8]
  | some x => 1#8 :: f x

/-- A list: a 1-byte count, then the items (R187). -/
def listed {α : Type} (f : α → List Byte) (xs : List α) : List Byte := byte1 xs.length ++ xs.flatMap f

def Result.code : Result → Nat
  | .ok => 0x00 | .noEdition => 0x01 | .editionClosed => 0x02 | .notClosed => 0x03 | .noPage => 0x04 | .pageKilled => 0x05
  | .liveLocked => 0x06 | .tableFull => 0x07 | .siteInUse => 0x08 | .badMask => 0x09 | .staleVersion => 0x0A
  | .noSuchVersion => 0x0B | .alreadyReleased => 0x0C | .badSeparation => 0x0D | .duplicateSeparation => 0x0E
  | .storeFull => 0x0F | .overrun => 0x10 | .incomplete => 0x11 | .badBandSequence => 0x12 | .bandTooLong => 0x13
  | .bandCountMismatch => 0x14 | .byteCountMismatch => 0x15 | .checkFailed => 0x16 | .resync => 0x17 | .protocol => 0x18
  | .badSlot => 0x19 | .badTarget => 0x1A | .slotExhausted => 0x1B | .poolFull => 0x1C | .notHeld => 0x1D | .lineBusy => 0x1E
  | .clockNotSet => 0x1F | .badArgument => 0x20

def PortCause.code : PortCause → Nat
  | .strayByte => 0 | .unknownType => 1 | .badLength => 2 | .badCrc => 3 | .framing => 4

def ClearCause.code : ClearCause → Nat
  | .desk => 0 | .targetHeld => 1 | .siteRestart => 2

def RefuseReason.code : RefuseReason → Nat
  | .targetMissing => 1 | .unreadable => 2 | .editionUnknown => 3

def Level.code : Level → Nat
  | .down => 0 | .training => 1 | .up => 2 | .degraded => 3

def Verdict.code : Verdict → Nat
  | .none => 0 | .up => 1 | .degraded => 2 | .noLock => 3 | .stuck => 4 | .errors => 5

def TrainingCause.code : TrainingCause → Nat
  | .start => 0 | .retryTimer => 1 | .lineRetry => 2 | .expiry => 3 | .protocol => 4 | .frameErrors => 5 | .framing => 6
  | .siteRestart => 7 | .lineReset => 8

def PageState.code : PageState → Nat
  | .opened => 0 | .live => 1 | .killed => 2

def Colour.code : Colour → Nat
  | .mono => 0 | .process => 1

def CandidateState.code : CandidateState → Nat
  | .collecting => 0 | .complete => 1

def BacklogKind.code : BacklogKind → Nat
  | .withdraw => 0 | .release => 1 | .reseed => 2

def EditionState.code : EditionState → Nat
  | .opened => 0 | .closed => 1 | .retiring => 2

def SiteState.code : SiteState → Nat
  | .waiting => 0 | .ready => 1 | .late => 2 | .running => 3 | .closed => 4

def EntryKind.code : EntryKind → Nat
  | .plate => 0 | .target => 1 | .withdraw => 2

def EntryState.code : EntryState → Nat
  | .queued => 0 | .gated => 1 | .active => 2 | .confirming => 3 | .aborting => 4

def TransferState.code : TransferState → Nat
  | .idle => 0 | .opening => 1 | .sending => 2 | .draining => 3 | .confirming => 4 | .aborting => 5

/-- The gate set: TARGET 0, HOLD 1, COLOUR 2, RESUPPLY 3 (R111). -/
def Gates.bits (g : Gates) : Nat :=
  (if g.target then 1 else 0) + (if g.hold then 2 else 0) + (if g.colour then 4 else 0) + (if g.resupply then 8 else 0)

def keyBytes (k : PageKey) : List Byte := byte1 k.title.code ++ byte1 k.edition ++ byte1 k.page

def titleByte (t : Title) : List Byte := byte1 t.code

def siteByte (s : Site) : List Byte := byte1 s.val

def setByte (m : SepSet) : List Byte := byte1 m.toNat

/-- A worst deviation; NO_READING is 0xFFFF (log 19). -/
def worstBytes (d : Option Nat) : List Byte := byte2 (d.getD 65535)

/-! ### Notices (R173, R188) -/

/-- The type of a notice: 0x80 to 0x9A in the order of R188. -/
def Notice.type : Notice → Byte
  | .declareResult _ _ | .editionDeclareResult _ _ => 0x80#8
  | .submitResult _ _ _ _ _ _ => 0x81#8
  | .candidateReplaced _ _ _ => 0x82#8
  | .released _ _ _ => 0x83#8
  | .killed _ => 0x84#8
  | .delivered _ _ _ => 0x85#8
  | .resupplyNeeded _ _ _ => 0x86#8
  | .strayPlate _ _ _ _ => 0x87#8
  | .late _ _ _ _ => 0x88#8
  | .ready _ _ _ => 0x89#8
  | .readyLost _ _ => 0x8A#8
  | .pressRun _ _ _ => 0x8B#8
  | .holdState _ _ => 0x8C#8
  | .closed _ _ => 0x8D#8
  | .retireResult _ => 0x8E#8
  | .editionFreed _ => 0x8F#8
  | .targetResult _ _ _ => 0x90#8
  | .targetLoaded _ _ _ _ _ => 0x91#8
  | .colourHold _ _ _ _ _ => 0x92#8
  | .colourCleared _ _ _ => 0x93#8
  | .plateRefused _ _ _ _ _ => 0x94#8
  | .siteRestart _ => 0x95#8
  | .lineTraining _ _ | .lineInService _ _ _ _ | .lineDown _ _ => 0x96#8
  | .portError _ => 0x97#8
  | .portResynced => 0x98#8
  | .queryReply _ _ _ _ => 0x99#8
  | .reply _ _ _ _ => 0x9A#8

/-- A LINE_STATE body: site and level, then the four fields that a level may lack, each with its presence byte (R150, log 19). -/
def lineStateBytes (s : Site) (level : Level) (cause : Option Nat) (attempt errors verdict : Option Nat) : List Byte :=
  siteByte s ++ byte1 level.code ++ optional byte1 cause ++ optional byte1 attempt ++ optional byte1 verdict ++ optional byte4 errors

/-- The body of a notice: the fields of its appending rule, in order (R188, log 19). -/
def Notice.body : Notice → List Byte
  | .declareResult key r => keyBytes key ++ byte1 r.code
  | .editionDeclareResult edition r => byte1 edition ++ byte1 0 ++ byte1 r.code
  | .submitResult key sep version r bands bytes =>
    (match key with
      | some k => keyBytes k
      | none => [0#8, 0#8, 0#8]) ++ byte1 sep ++ byte1 version ++ byte1 r.code ++ byte4 bands ++ byte4 bytes
  | .candidateReplaced key old new => keyBytes key ++ byte1 old ++ byte1 new
  | .released key version mask => keyBytes key ++ byte1 version ++ [mask]
  | .killed key => keyBytes key
  | .delivered key s version => keyBytes key ++ siteByte s ++ byte1 version
  | .resupplyNeeded key sep version => keyBytes key ++ byte1 sep.index ++ byte1 version
  | .strayPlate s key sep version => siteByte s ++ keyBytes key ++ byte1 sep.index ++ byte1 version
  | .late title edition s cutoff =>
    (match title with
      | some t => titleByte t
      | none => []) ++ byte1 edition ++ siteByte s ++ byte4 cutoff
  | .ready edition s mark => byte1 edition ++ siteByte s ++ flagByte mark
  | .readyLost edition s => byte1 edition ++ siteByte s
  | .pressRun edition s mark => byte1 edition ++ siteByte s ++ flagByte mark
  | .holdState edition set => byte1 (edition.getD 0) ++ flagByte set
  | .closed edition sites => byte1 edition ++ [sites]
  | .retireResult r => byte1 r.code
  | .editionFreed edition => byte1 edition
  | .targetResult slot generation r => byte1 slot ++ byte2 generation ++ byte1 r.code
  | .targetLoaded slot generation name loader sites =>
    byte1 slot.val ++ byte2 generation ++ name ++ titleByte loader ++ [sites]
  | .colourHold s slot generation count worst =>
    siteByte s ++ byte1 slot.val ++ byte2 generation ++ byte1 count ++ worstBytes worst
  | .colourCleared s slot cause => siteByte s ++ byte1 slot.val ++ byte1 cause.code
  | .plateRefused s key sep version reason =>
    siteByte s ++ keyBytes key ++ byte1 sep.index ++ byte1 version ++ byte1 reason.code
  | .siteRestart s => siteByte s
  | .lineTraining s cause => lineStateBytes s .training (some cause.code) none none none
  | .lineInService s degraded attempt errors =>
    lineStateBytes s (if degraded then .degraded else .up) none (some attempt) (some errors) none
  | .lineDown s v =>
    lineStateBytes s .down none none (if v.verdict == .errors then some v.errors else none) (some v.verdict.code)
  | .portError cause => byte1 cause.code
  | .portResynced => []
  | .queryReply type tag r data => type :: tag :: (byte1 r.code ++ data)
  | .reply type tag r data => type :: tag :: (byte1 r.code ++ data)

/-- The bytes the CRC-16 covers: type, flags, length and body (R188, R190). -/
def coveredBytes (type flags : Byte) (body : List Byte) : List Byte :=
  type :: flags :: BitVec.ofNat 8 (body.length / 65536) :: (byte2 body.length ++ body)

/-- A record in the port envelope (R188). -/
def envelope (type flags : Byte) (body : List Byte) : List Byte :=
  0xC3#8 :: 0x3C#8 :: (coveredBytes type flags body ++ byte2 (crc16 (coveredBytes type flags body)).toNat)

/-- The bytes a notice record is sent as, with the LOST mark in bit 0 of its flags (R173, R188). -/
def NoticeRec.bytes (r : NoticeRec) : List Byte := envelope r.notice.type (if r.lost then 1#8 else 0#8) r.notice.body

/-! ### Reply data (R81, R101, R176, R177) -/

def releasedBytes (r : Released) : List Byte :=
  byte1 r.version ++ setByte r.images.sepSet ++ [r.mask] ++ byte1 r.slot.val ++ byte2 r.generation ++ setByte r.resupply

def candidateBytes (c : Candidate) : List Byte :=
  byte1 c.version ++ setByte c.images.sepSet ++ byte1 c.state.code ++ flagByte c.approved

/-- A page's membership with its position, counted from 1 at the head (R176). -/
def membershipBytes (i : BacklogItem) (position : Nat) : List Byte :=
  byte1 i.kind.code ++ [i.sites] ++ optional (fun m => [m]) (if i.kind == .release then some i.carried else none) ++ byte2 position

/-- The place of a page's item in the backlog, and the item. -/
def findPosition (key : PageKey) : List BacklogItem → Nat → Option (BacklogItem × Nat)
  | [], _ => none
  | i :: rest, n => if i.key == key then some (i, n) else findPosition key rest (n + 1)

/-- The data of an OK PAGE_QUERY (R176). -/
def Work.pageData (w : Work) (p : PageRec) : List Byte :=
  byte1 p.state.code ++ byte1 p.colour.code ++ [p.declMask] ++ byte1 p.declSlot.val ++ optional releasedBytes p.released
    ++ optional candidateBytes p.candidate ++ allSites.flatMap (fun s => byte1 (p.site s).held ++ setByte (p.site s).progress)
    ++ optional (fun x => membershipBytes x.1 x.2) (findPosition p.key w.backlog 1)

/-- A cut-off of an edition-site is armed (R71). -/
def Work.armed (w : Work) (t : Title) (code : Nat) (s : Site) : Bool := w.deadlines.any (Deadline.is t code s)

/-- The sites of an edition's site set with what its record keeps for them, in site order. -/
def EditionRec.siteList (r : EditionRec) : List (Site × EditionSite) :=
  allSites.filterMap (fun s => (tget r.sites s).map (fun x => (s, x)))

/-- The data of an OK EDITION_QUERY (R81). -/
def Work.editionData (w : Work) (r : EditionRec) : List Byte :=
  byte1 r.state.code ++ flagByte r.hold ++ flagByte (w.titleHold.get r.title) ++ flagByte w.clock.set ++ byte4 w.clock.value
    ++ listed (fun (x : Site × EditionSite) =>
        byte4 x.2.pressStart ++ byte4 x.2.cutoff ++ byte1 x.2.pageCount ++ byte1 x.2.delivered ++ byte1 x.2.state.code
          ++ flagByte x.2.lateMark ++ flagByte (w.armed r.title r.code x.1)) r.siteList

/-- An entry in a SITE_QUERY reply (R177); a field its kind lacks is absent, and the acknowledged band count is a count of bands
(R188). -/
def entryBytes (e : Entry) : List Byte :=
  let plate {α : Type} (x : α) : Option α := if e.kind == .plate then some x else none
  byte2 e.number ++ byte1 e.kind.code ++ optional titleByte (e.key.map PageKey.title) ++ optional keyBytes e.key
    ++ optional (fun p => byte1 p.index) e.sep ++ optional byte1 (if e.kind == .target then none else some e.version)
    ++ optional (fun k => byte1 k.val) e.slot ++ optional byte2 (if e.kind == .withdraw then none else some e.generation)
    ++ optional byte4 e.deadline ++ byte1 e.state.code ++ optional (fun g => byte1 g.bits) (plate e.gates)
    ++ optional flagByte (plate e.late) ++ optional byte4 (plate e.acked)

/-- The current entry's acknowledged band count: of a PLATE only. -/
def Work.currentAcked (w : Work) (s : Site) : Option Nat :=
  match (w.engine s).current.bind w.findEntry with
  | some e => if e.kind == .plate then some e.acked else none
  | none => none

/-- The data of an OK SITE_QUERY (R177): the measured error count of every last verdict (log 53), the last title started as a field that may
be absent (log 56). -/
def Work.siteData (w : Work) (s : Site) : List Byte :=
  let q := w.qual s
  let e := w.engine s
  byte1 q.level.code ++ byte1 q.attempt ++ byte1 q.verdict.verdict.code ++ byte4 q.verdict.errors ++ flagByte q.retrainPending
    ++ byte1 e.state.code ++ optional byte2 e.current ++ byte1 e.tag ++ optional byte4 (w.currentAcked s) ++ byte1 e.expiry
    ++ optional titleByte (tget w.arbiters s) ++ byte2 (w.queue s).length ++ byte2 w.freeRecords
    ++ listed entryBytes ((w.queue s).take 64)
    ++ allSlots.flatMap (fun k => byte2 (w.holding s k) ++ flagByte (w.check s k).hold)

/-- The data of an OK COLOUR_QUERY (R101), the last loader as a field that may be absent (log 56). -/
def Work.colourData (c : ConfigWords) (w : Work) (s : Site) (k : SlotNo) : List Byte :=
  let t := w.slot k
  let r := w.check s k
  byte2 t.generation ++ t.name ++ byte1 t.patches.length ++ optional titleByte t.loader ++ byte2 (w.holding s k) ++ byte1 r.outCount
    ++ flagByte r.hold ++ byte2 r.holdGeneration ++ worstBytes r.lastWorst ++ worstBytes r.sessionWorst ++ byte6 r.sumSquares
    ++ byte4 r.readings ++ byte1 (cfg c .outLimit)

/-! ### Inbound messages (R169, R188) -/

/-- A type the port accepts inbound. -/
def acceptsType (p : PortId) (type : Nat) : Bool :=
  match p with
  | .title _ => Nat.ble 0x01 type && Nat.ble type 0x09
  | .desk => (Nat.ble 0x08 type && Nat.ble type 0x09) || (Nat.ble 0x20 type && Nat.ble type 0x29)

/-- A body length among those listed for the type. -/
def lengthListed (type len : Nat) : Bool :=
  match type with
  | 0x01 => len % 6 == 1 && Nat.ble len 49
  | 0x02 => len == 1
  | 0x03 => len == 5
  | 0x04 => len == 18
  | 0x05 => Nat.ble 1 len && Nat.ble len 262145
  | 0x06 => len == 8
  | 0x07 => Nat.ble 7 len && Nat.ble len 151
  | 0x08 => len == 3
  | 0x09 => len == 2
  | 0x20 => len == 4
  | 0x21 => len == 3
  | 0x22 => len == 2
  | 0x23 => len == 2
  | 0x24 => len == 3
  | 0x25 => len == 5
  | 0x26 => len == 1
  | 0x27 => len == 2
  | 0x28 => len == 1
  | 0x29 => len == 2
  | _ => false

/-- The byte at a place of a message. -/
def byteAt (l : List Byte) (i : Nat) : Byte := l.getD i 0#8

/-- The word four bytes make, the first most significant. -/
def wordOf (a b c d : Byte) : Word := a ++ b ++ c ++ d

/-- The body length a header holds, in bytes 4 to 6 (R188). -/
def headerLength (l : List Byte) : Nat := (byteAt l 4).toNat * 65536 + be16 (byteAt l 5) (byteAt l 6)

/-- Site records of an EDITION_DECLARE body (R188). -/
def siteDecls : List Byte → List SiteDecl
  | s :: a :: b :: c :: d :: n :: rest => { site := s, pressStart := wordOf a b c d, pageCount := n } :: siteDecls rest
  | _ => []

/-- The command a title port's message body stands for (R188). -/
def titleCommand (t : Title) (type : Nat) (tag : Byte) (body : List Byte) : Option Instr :=
  match type, body with
  | 0x01, e :: rest => some (.editionDeclare t e (siteDecls rest))
  | 0x02, [e] => some (.editionRetire t e)
  | 0x03, [e, p, c, m, k] => some (.pageDeclare t e p c m k)
  | 0x04, [e, p, s, v, n1, n0, w3, w2, w1, w0, h3, h2, h1, h0, b3, b2, b1, b0] =>
    some (.imageBegin t
      { edition := e, page := p, separation := s, version := v, bandCount := n1 ++ n0, width := wordOf w3 w2 w1 w0,
        height := wordOf h3 h2 h1 h0, totalBytes := wordOf b3 b2 b1 b0 })
  | 0x05, m :: payload => some (.band t m payload)
  | 0x06, [t3, t2, t1, t0, c3, c2, c1, c0] => some (.imageEnd t (wordOf t3 t2 t1 t0) (wordOf c3 c2 c1 c0))
  | 0x07, k :: m :: n0 :: n1 :: n2 :: n3 :: count :: records =>
    some (.targetLoad t
      { slot := k, mask := m, name0 := n0, name1 := n1, name2 := n2, name3 := n3, patchCount := count, records := records })
  | 0x08, [tt, e, p] => some (.pageQuery (.title t) tag tt e p)
  | 0x09, [tt, e] => some (.editionQuery (.title t) tag tt e)
  | _, _ => none

/-- The command a desk message body stands for (R188). -/
def deskCommand (type : Nat) (tag : Byte) (body : List Byte) : Option Instr :=
  match type, body with
  | 0x08, [t, e, p] => some (.pageQuery .desk tag t e p)
  | 0x09, [t, e] => some (.editionQuery .desk tag t e)
  | 0x20, [t, e, p, v] => some (.approve tag t e p v)
  | 0x21, [t, e, p] => some (.kill tag t e p)
  | 0x22, [t, e] => some (.hold tag t e)
  | 0x23, [t, e] => some (.unhold tag t e)
  | 0x24, [t, e, s] => some (.close tag t e s)
  | 0x25, [m, v3, v2, v1, v0] => some (.setClock tag m (wordOf v3 v2 v1 v0))
  | 0x26, [s] => some (.lineRetry tag s)
  | 0x27, [s, k] => some (.colourClear tag s k)
  | 0x28, [s] => some (.siteQuery tag s)
  | 0x29, [s, k] => some (.colourQuery tag s k)
  | _, _ => none

/-- The command a complete message in a port's store stands for. -/
def storedCommand (p : PortId) (l : List Byte) : Option Instr :=
  let body := (l.drop 7).take (headerLength l)
  match p with
  | .title t => titleCommand t (byteAt l 2).toNat (byteAt l 3) body
  | .desk => deskCommand (byteAt l 2).toNat (byteAt l 3) body

/-! ### Outbound line frames (R189) -/

/-- Bytes packed in words, bits 31 to 24 first, padded with 0x00. -/
def packWords : List Byte → List Word
  | [] => []
  | [a] => [wordOf a 0#8 0#8 0#8]
  | [a, b] => [wordOf a b 0#8 0#8]
  | [a, b, c] => [wordOf a b c 0#8]
  | a :: b :: c :: d :: rest => wordOf a b c d :: packWords rest

def OutFrame.type : OutFrame → Byte
  | .plateOpen _ _ _ _ _ _ _ _ _ _ => 0x01#8
  | .band _ _ _ => 0x02#8
  | .plateAbort _ _ _ _ => 0x03#8
  | .targetSet _ _ _ _ _ => 0x04#8
  | .pageWithdraw _ _ _ => 0x05#8

/-- The tag a frame is sent with: 0 for a TARGET_SET, which carries none (R129, R189, log 32). -/
def OutFrame.wireTag : OutFrame → Nat
  | .plateOpen tag _ _ _ _ _ _ _ _ _ => tag
  | .band tag _ _ => tag
  | .plateAbort tag _ _ _ => tag
  | .targetSet _ _ _ _ _ => 0
  | .pageWithdraw tag _ _ => tag

/-- A patch record in a TARGET_SET: its six bytes and two bytes of padding (R189). -/
def patchBytes (p : Patch) : List Byte :=
  byte1 p.sep.index ++ byte1 p.tint ++ byte2 p.aim ++ byte2 p.tolerance ++ [0#8, 0#8]

/-- The body words of an outbound frame (R189). -/
def OutFrame.body : OutFrame → List Word
  | .plateOpen _ key sep version slot generation bands bytes replace resume =>
    packWords (keyBytes key ++ byte1 sep.index ++ byte1 version ++ byte1 slot.val ++ byte2 generation)
      ++ [flagAtTop replace ||| BitVec.ofNat 32 (bands % 2048 * 65536 + resume % 2048), BitVec.ofNat 32 bytes]
  | .band _ index payload => BitVec.ofNat 32 (index % 65536) :: BitVec.ofNat 32 payload.length :: packWords payload
  | .plateAbort _ key sep version => packWords (keyBytes key ++ byte1 sep.index ++ byte1 version)
  | .targetSet _ slot generation name patches =>
    packWords (byte1 slot.val ++ byte1 patches.length ++ byte2 generation ++ name ++ patches.flatMap patchBytes)
  | .pageWithdraw _ key version => packWords (keyBytes key ++ byte1 0 ++ byte1 version)
where
  /-- A flag in bit 31. -/
  flagAtTop (b : Bool) : Word := if b then 0x80000000#32 else 0#32

/-- The header word: type, tag, body length in words (R189). -/
def OutFrame.header (f : OutFrame) : Word := f.type ++ BitVec.ofNat 8 f.wireTag ++ BitVec.ofNat 16 f.body.length

/-- The words of a frame on the line: sync, header, body, CRC word (R189). -/
def OutFrame.words (f : OutFrame) : List Word :=
  syncWord :: f.header :: (f.body ++ [((f.header :: f.body).foldl crc16Word 0xFFFF#16).setWidth 32])

/-- The word between frames (R189). -/
def idleWord : Word := 0x0F0F0F0F#32

/-- What the transmit direction of a line carries: the frame in transmission, which is sent whole; else a word of the TRAIN frames while
the line trains, and the idle word at every other level (R128, R150, R156, R189). -/
def Work.lineCarries (w : Work) (s : Site) : List Word :=
  match (w.engine s).tx with
  | f :: _ => f.words
  | [] => if (w.qual s).level == .training then [(w.qual s).trainWord] else [idleWord]

end Sys2Proof.Machine
end

