-- ==== Sys2Proof/Machine/Ports.lean ====
section
/-! DEFINITION. The ports (chapter 9): lanes, the byte assembler and its envelope checks, the taking of complete messages, and the
sending of notice records. -/

namespace Sys2Proof.Machine

/-! ### Lanes (R167) -/

/-- The byte of a word in a lane, 0 to 3, in the port's byte order. -/
def laneByte (o : ByteOrder) (i : Nat) (w : Word) : Byte :=
  match o with
  | .high => w.extractLsb' (24 - 8 * i) 8
  | .low => w.extractLsb' (8 * i) 8

/-- The word four bytes fill in lane order. -/
def laneWord (o : ByteOrder) (a b c d : Byte) : Word :=
  match o with
  | .high => wordOf a b c d
  | .low => wordOf d c b a

/-! ### The assembler (R168 to R170) -/

/-- The assembler in STALLED with an empty message store (R170). -/
def Assembler.stalled : Assembler := { state := .stalled, c3Held := false, store := [], complete := false }

/-- The assembler between messages in SYNCED. -/
def Assembler.between : Assembler := { state := .synced, c3Held := false, store := [], complete := false }

/-- A message begun at its sync (R168). -/
def Assembler.begun : Assembler := { state := .synced, c3Held := false, store := [0xC3#8, 0x3C#8], complete := false }

/-- The check after the header (R169). -/
def headerFault (p : PortId) (l : List Byte) : Option PortCause :=
  if !acceptsType p (byteAt l 2).toNat then some .unknownType
  else if !lengthListed (byteAt l 2).toNat (headerLength l) then some .badLength
  else none

/-- The CRC-16 at the end of a message agrees with its type to last body byte (R188, R190). -/
def crcAgrees (l : List Byte) : Bool :=
  crc16 ((l.drop 2).take (5 + headerLength l)) == (byteAt l (7 + headerLength l) ++ byteAt l (8 + headerLength l))

/-- A message's next byte stored, with the checks after the header and after the CRC-16 (R169). -/
def Assembler.storeByte (p : PortId) (b : Byte) (a : Assembler) : Assembler × Option PortCause :=
  let l := a.store ++ [b]
  if l.length == 7 then
    match headerFault p l with
    | some cause => (.stalled, some cause)
    | none => ({ a with store := l }, none)
  else if Nat.ble 8 l.length && l.length == 9 + headerLength l then
    if crcAgrees l then ({ a with store := l, complete := true }, none) else (.stalled, some .badCrc)
  else ({ a with store := l }, none)

/-- A byte while hunting in IDLE (R168). -/
def Assembler.hunt (b : Byte) (a : Assembler) : Assembler :=
  if a.c3Held && b == 0x3C#8 then .begun else { a with c3Held := b == 0xC3#8 }

/-- A byte between messages in SYNCED (R168). -/
def Assembler.betweenByte (b : Byte) (a : Assembler) : Assembler × Option PortCause :=
  if a.c3Held then if b == 0x3C#8 then (.begun, none) else (.stalled, some .strayByte)
  else if b == 0#8 then (a, none)
  else if b == 0xC3#8 then ({ a with c3Held := true }, none)
  else (.stalled, some .strayByte)

/-- One byte taken by the assembler: the new state, and the cause when the port stalls (R168). -/
def Assembler.take (p : PortId) (b : Byte) (a : Assembler) : Assembler × Option PortCause :=
  match a.state with
  | .stalled => (a, none)
  | .idle => (a.hunt b, none)
  | .synced => if a.store.isEmpty then a.betweenByte b else a.storeByte p b

/-- The notices of a port entering STALLED: PORT_ERROR to its own queue, its PORT_STALLED flag (R170). -/
def Work.portStalled (p : PortId) (cause : PortCause) (w : Work) : Work :=
  (w.notify p (.portError cause)).raiseError (ErrorReport.setStalled p)

/-- What a port tells of the byte it took. -/
def Work.afterByte (p : PortId) (cause : Option PortCause) (w : Work) : Work :=
  match cause with
  | some x => w.portStalled p x
  | none => w

/-! ### Port updates of the machine -/

def State.setWork (w : Work) (s : State) : State := { s with work := w }

/-- A command's answer: a next state whose working state alone changed. -/
def State.onWork (f : Work → Work) (s : State) : Host.Outcome State Fault Refusal := .next (s.setWork (f s.work))

def State.modPort (t : Title) (f : TitlePort → TitlePort) (s : State) : State :=
  { s with ports := s.ports.put t (f (s.ports.get t)) }

def State.asmOf (s : State) : PortId → Assembler
  | .title t => (s.ports.get t).asm
  | .desk => s.desk.asm

def State.setAsm (p : PortId) (a : Assembler) (s : State) : State :=
  match p with
  | .title t => s.modPort t (fun x => { x with asm := a })
  | .desk => { s with desk := { s.desk with asm := a } }

/-- One byte of the word at the head of an inbound buffer is done; the word leaves with its fourth (R166). -/
def TitlePort.advance (x : TitlePort) : TitlePort :=
  if x.lane == 3 then { x with lane := 0, buffer := x.buffer.drop 1 } else { x with lane := x.lane + 1 }

/-- A byte given to a port's assembler, and what the port tells of it. -/
def State.giveByte (p : PortId) (b : Byte) (s : State) : State :=
  let r := (s.asmOf p).take p b
  (s.setAsm p r.1).setWork (s.work.afterByte p r.2)

/-! ### Complete messages (R169, log 7) -/

/-- A message of the port can be handed to its owner now: the part is in RUN, the port is neither STALLED nor held by RESYNC, and
where its store holds a complete message, it is this one. -/
def State.takesMessage (s : State) (p : PortId) (i : Instr) : Bool :=
  let a := s.asmOf p
  s.svc.phase == .run && a.state != .stalled
    && (match p with
        | .title t => !(s.ports.get t).resyncIn
        | .desk => true)
    && (!a.complete || storedCommand p a.store == some i)

/-- The message store emptied once its owner has taken the message (R166, R169). -/
def State.messageTaken (p : PortId) (s : State) : State := if (s.asmOf p).complete then s.setAsm p .between else s

/-- A message handed to its owner, which acts on the working state; a message that cannot arrive changes nothing. -/
def State.message (p : PortId) (i : Instr) (f : Work → Work) (s : State) : State :=
  if s.takesMessage p i then (s.messageTaken p).setWork (f s.work) else s

/-! ### Sending (R166, R173) -/

/-- The bytes of the records of a queue, from a place within the head record on. -/
def streamBytes : List NoticeRec → Nat → List Byte
  | [], _ => []
  | r :: rest, sent => r.bytes.drop sent ++ rest.flatMap NoticeRec.bytes

/-- The queue, and the place within its head record, after some bytes have been sent: a record leaves with its last byte (R173). -/
def afterSending : Nat → List NoticeRec → Nat → List NoticeRec × Nat
  | _, [], _ => ([], 0)
  | k, r :: rest, sent =>
    if sent + k < r.bytes.length then (r :: rest, sent + k) else afterSending (k - (r.bytes.length - sent)) rest 0

/-- The last bytes of the head record, when they fill a word only in part (R165, log 18). -/
def partWord (q : List NoticeRec) (sent : Nat) : List Byte :=
  match q with
  | [] => []
  | r :: _ => if Nat.blt (r.bytes.drop sent).length 4 then r.bytes.drop sent else []

/-- Some bytes sent from an outbox, with what went out. -/
def Outbox.sendBytes (k : Nat) (out : Word) (o : Outbox) : Outbox :=
  let r := afterSending k o.queue o.sent
  { o with queue := r.1, sent := r.2, lastOut := out }

/-- The outbound word of a title port: four bytes in lane order, lanes past the end of the queue 0x00 (R173). -/
def Outbox.nextWord (order : ByteOrder) (o : Outbox) : Word :=
  let l := (streamBytes o.queue o.sent).take 4
  laneWord order (byteAt l 0) (byteAt l 1) (byteAt l 2) (byteAt l 3)

/-- A title port's outbound word sent (R166, R173). -/
def Outbox.sendWord (order : ByteOrder) (o : Outbox) : Outbox :=
  if o.queue.isEmpty then o
  else
    let r := o.sendBytes 4 (o.nextWord order)
    { r with outWord := partWord r.queue r.sent }

/-- A character of the Desk Port sent (R173). -/
def Outbox.sendChar (o : Outbox) : Outbox :=
  if o.queue.isEmpty then o else o.sendBytes 1 ((byteAt (streamBytes o.queue o.sent) 0).setWidth 32)

end Sys2Proof.Machine
end

