-- ==== Sys2Proof/Machine/DeskCommands.lean ====
section
/-! DEFINITION. The desk's commands and the queries of all ports (R175 to R177). -/

namespace Sys2Proof.Machine

/-- A desk command taken: its effect, and its REPLY after every notice of its own effects (R175). -/
def State.deskMessage (i : Instr) (type tag : Byte) (f : Work → Work × Result) (s : State) : State :=
  s.message .desk i (fun w => let r := f w; r.1.toDesk (.reply type tag r.2 []))

/-- A query answered on the port it came by: QUERY_REPLY on a title port, REPLY on the desk (R176). -/
def Work.answerQuery (p : PortId) (type tag : Byte) (r : Result × List Byte) (w : Work) : Work :=
  match p with
  | .title t => w.toTitle t (.queryReply type tag r.1 r.2)
  | .desk => w.toDesk (.reply type tag r.1 r.2)

/-- The port may name the title: a title port only its own (R176). -/
def portNames (p : PortId) (title : Byte) : Bool :=
  match p with
  | .title t => titleOf title == some t
  | .desk => true

/-! ### Queries -/

/-- The answer to a PAGE_QUERY (R176); a refusal carries no data (log 41). -/
def Work.pageAnswer (w : Work) (p : PortId) (title edition page : Byte) : Result × List Byte :=
  match keyOf title edition page with
  | none => (.badArgument, [])
  | some key =>
    if !portNames p title then (.badArgument, [])
    else
      match w.findPage key with
      | none => (.noPage, [])
      | some r => (.ok, w.pageData r)

def execPageQuery (p : PortId) (tag title edition page : Byte) (s : State) : Host.Outcome State Fault Refusal :=
  .next (s.message p (.pageQuery p tag title edition page)
    (fun w => w.answerQuery p 0x08#8 tag (w.pageAnswer p title edition page)))

/-- The answer to an EDITION_QUERY (R81); a refusal carries no data (log 41). -/
def Work.editionAnswer (w : Work) (p : PortId) (title edition : Byte) : Result × List Byte :=
  match titleOf title with
  | none => (.badArgument, [])
  | some t =>
    if !portNames p title || !editionOk edition.toNat then (.badArgument, [])
    else
      match w.findEdition t edition.toNat with
      | none => (.noEdition, [])
      | some r => (.ok, w.editionData r)

def execEditionQuery (p : PortId) (tag title edition : Byte) (s : State) : Host.Outcome State Fault Refusal :=
  .next (s.message p (.editionQuery p tag title edition)
    (fun w => w.answerQuery p 0x09#8 tag (w.editionAnswer p title edition)))

/-- The answer to a SITE_QUERY (R177); a refusal carries no data (log 41). -/
def Work.siteAnswer (w : Work) (site : Byte) : Result × List Byte :=
  match siteOf site with
  | none => (.badArgument, [])
  | some i => (.ok, w.siteData i)

def execSiteQuery (tag site : Byte) (s : State) : Host.Outcome State Fault Refusal :=
  .next (s.message .desk (.siteQuery tag site) (fun w => w.answerQuery .desk 0x28#8 tag (w.siteAnswer site)))

/-- The answer to a COLOUR_QUERY (R101); a refusal carries no data (log 41). -/
def Work.colourAnswer (c : ConfigWords) (w : Work) (site slot : Byte) : Result × List Byte :=
  match siteOf site with
  | none => (.badArgument, [])
  | some i =>
    match slotOf slot with
    | none => (.badSlot, [])
    | some k => (.ok, w.colourData c i k)

def execColourQuery (tag site slot : Byte) (s : State) : Host.Outcome State Fault Refusal :=
  .next (s.message .desk (.colourQuery tag site slot)
    (fun w => w.answerQuery .desk 0x29#8 tag (w.colourAnswer s.config site slot)))

/-! ### APPROVE (R9) -/

/-- The reply to an APPROVE of version v (R9, orders 4 to 9). -/
def PageRec.approveResult (p : PageRec) (v : Nat) : Result :=
  if v == p.releasedVersion then .alreadyReleased
  else if Nat.blt v p.releasedVersion then .staleVersion
  else
    match p.candidate with
    | some c => if v == c.version then .ok else if Nat.blt v c.version then .staleVersion else .noSuchVersion
    | none => .noSuchVersion

/-- The reply to an APPROVE of a page (R9). -/
def Work.approveResult (w : Work) (key : PageKey) (v : Nat) : Result :=
  match w.findPage key with
  | none => .noPage
  | some p =>
    if p.state == .killed then .pageKilled
    else if w.editionState key.title key.edition == some .closed then .editionClosed
    else p.approveResult v

/-- The candidate approved; a COMPLETE one joins the backlog, and one already approved changes nothing (R9, R11). -/
def Work.approvePage (key : PageKey) (w : Work) : Work :=
  match (w.findPage key).bind PageRec.candidate with
  | none => w
  | some c =>
    if c.approved then w
    else
      let w := w.modPage key (fun p => { p with candidate := some { c with approved := true } })
      if c.state == .complete then w.joinRelease key else w

/-- An APPROVE (R9). -/
def Work.approve (title edition page version : Byte) (w : Work) : Work × Result :=
  match keyOf title edition page with
  | none => (w, .badArgument)
  | some key =>
    if version == 0#8 then (w, .badArgument)
    else
      match w.approveResult key version.toNat with
      | .ok => (w.approvePage key, .ok)
      | r => (w, r)

def execApprove (tag title edition page version : Byte) (s : State) : Host.Outcome State Fault Refusal :=
  .next (s.deskMessage (.approve tag title edition page version) 0x20#8 tag (Work.approve title edition page version))

/-! ### KILL (R16) -/

/-- A kill taken: the page, its plates, the readiness counts, KILLED to the title, the title's parser (R16, R24, R46). -/
def Work.takeKill (c : ConfigWords) (p : PageRec) (w : Work) : Work :=
  let w := ((w.killPage p).killPlates c p.key).leaveCount p.key p.countedSites
  (w.toTitle p.key.title (.killed p.key)).parserKilled p.key

/-- A KILL (R16). -/
def Work.kill (c : ConfigWords) (title edition page : Byte) (w : Work) : Work × Result :=
  match keyOf title edition page with
  | none => (w, .badArgument)
  | some key =>
    match w.findPage key with
    | none => (w, .noPage)
    | some p =>
      if p.state == .killed then (w, .pageKilled)
      else if w.editionState key.title key.edition == some .closed then (w, .editionClosed)
      else (w.takeKill c p, .ok)

def execKill (tag title edition page : Byte) (s : State) : Host.Outcome State Fault Refusal :=
  .next (s.deskMessage (.kill tag title edition page) 0x21#8 tag (Work.kill s.config title edition page))

/-! ### HOLD and UNHOLD (R76) -/

/-- The Scheduler told of a changed hold flag, and HOLD_STATE to the title (R76). -/
def Work.holdNoted (t : Title) (code : Option Nat) (set : Bool) (w : Work) : Work :=
  (w.holdChanged t code).toTitle t (.holdState code set)

/-- A title-wide hold flag set or cleared (R76). -/
def Work.holdTitle (t : Title) (set : Bool) (w : Work) : Work :=
  if w.titleHold.get t == set then w
  else ({ w with titleHold := w.titleHold.put t set } : Work).holdNoted t none set

/-- An edition hold flag set or cleared (R76). -/
def Work.holdEdition (r : EditionRec) (set : Bool) (w : Work) : Work :=
  if r.hold == set then w
  else (w.modEdition r.title r.code (fun x => { x with hold := set })).holdNoted r.title (some r.code) set

/-- HOLD, with the flag to set, or UNHOLD, with the flag to clear (R76). -/
def Work.changeHold (set : Bool) (title edition : Byte) (w : Work) : Work × Result :=
  match titleOf title with
  | none => (w, .badArgument)
  | some t =>
    if edition == 0#8 then (w.holdTitle t set, .ok)
    else if !editionOk edition.toNat then (w, .badArgument)
    else
      match w.findEdition t edition.toNat with
      | none => (w, .noEdition)
      | some r => if r.state != .opened then (w, .editionClosed) else (w.holdEdition r set, .ok)

def execHold (tag title edition : Byte) (s : State) : Host.Outcome State Fault Refusal :=
  .next (s.deskMessage (.hold tag title edition) 0x22#8 tag (Work.changeHold true title edition))

def execUnhold (tag title edition : Byte) (s : State) : Host.Outcome State Fault Refusal :=
  .next (s.deskMessage (.unhold tag title edition) 0x23#8 tag (Work.changeHold false title edition))

/-! ### CLOSE (R77, R78) -/

/-- The sites a CLOSE names (R77): none when the site byte is out of range. -/
def closeTargets (r : EditionRec) (site : Byte) : Option SiteSet :=
  if site == 0xFF#8 then some r.siteSet else (siteOf site).map SiteSet.one

/-- An edition-site closed and its cut-off disarmed (R77). -/
def Work.closeSite (t : Title) (code : Nat) (s : Site) (w : Work) : Work :=
  (w.modEditionSite t code s (fun x => { x with state := .closed })).disarm t code s

/-- Every edition-site is CLOSED. -/
def EditionRec.allClosed (r : EditionRec) : Bool := SiteSet.less r.siteSet (SiteSet.ofPred (r.siteIs .closed)) == 0#8

/-- The edition CLOSED with its last edition-site, and its title's parser told (R78). -/
def Work.closeEdition (t : Title) (code : Nat) (w : Work) : Work :=
  match w.findEdition t code with
  | none => w
  | some r =>
    if r.allClosed then (w.modEdition t code (fun r => { r with state := .closed })).parserClosed t code else w

/-- Some edition-sites newly closed (R77, R78). -/
def Work.takeClose (c : ConfigWords) (t : Title) (code : Nat) (sites : SiteSet) (w : Work) : Work :=
  let w := w.each (Work.closeSite t code) (SiteSet.toList sites)
  let w := ((w.closeBacklog t code sites).closeEntries c t code sites).toTitle t (.closed code sites)
  w.closeEdition t code

/-- A CLOSE of an edition that has a record (R77, checks 3 and 4). One that closes no further site changes nothing, the edition's state
included (log 40). -/
def Work.closeRecord (c : ConfigWords) (r : EditionRec) (sites : SiteSet) (w : Work) : Work × Result :=
  if r.state != .opened then (w, .editionClosed)
  else if SiteSet.less sites r.siteSet != 0#8 then (w, .badMask)
  else
    let fresh := SiteSet.less sites (SiteSet.ofPred (r.siteIs .closed))
    (if fresh == 0#8 then w else w.takeClose c r.title r.code fresh, .ok)

/-- A CLOSE (R77). -/
def Work.close (c : ConfigWords) (title edition site : Byte) (w : Work) : Work × Result :=
  match titleOf title with
  | none => (w, .badArgument)
  | some t =>
    if !editionOk edition.toNat || (site != 0xFF#8 && (siteOf site).isNone) then (w, .badArgument)
    else
      match w.findEdition t edition.toNat with
      | none => (w, .noEdition)
      | some r =>
        match closeTargets r site with
        | none => (w, .badArgument)
        | some sites => w.closeRecord c r sites

def execClose (tag title edition site : Byte) (s : State) : Host.Outcome State Fault Refusal :=
  .next (s.deskMessage (.close tag title edition site) 0x24#8 tag (Work.close s.config title edition site))

/-! ### SET_CLOCK (R70) -/

/-- The clock set to a value, and every armed cut-off it has passed expired (R70). -/
def Work.clockTo (v : Nat) (w : Work) : Work := ({ w with clock := { set := true, value := v } } : Work).expirePassed

/-- A SET_CLOCK (R70); a RELATIVE value is a signed adjustment. -/
def Work.setClock (mode : Byte) (v : Word) (w : Work) : Work × Result :=
  match mode.toNat with
  | 0 => (w.clockTo v.toNat, .ok)
  | 1 =>
    if !w.clock.set then (w, .clockNotSet)
    else
      let sum := (w.clock.value : Int) + v.toInt
      if decide (sum < 0) || decide ((max32 : Int) < sum) then (w, .badArgument) else (w.clockTo sum.toNat, .ok)
  | _ => (w, .badArgument)

def execSetClock (tag mode : Byte) (v : Word) (s : State) : Host.Outcome State Fault Refusal :=
  .next (s.deskMessage (.setClock tag mode v) 0x25#8 tag (Work.setClock mode v))

/-! ### LINE_RETRY and COLOUR_CLEAR (R99, R161) -/

/-- A LINE_RETRY (R161). -/
def Work.retryLine (site : Byte) (w : Work) : Work × Result :=
  match siteOf site with
  | none => (w, .badArgument)
  | some i => w.lineRetry i

def execLineRetry (tag site : Byte) (s : State) : Host.Outcome State Fault Refusal :=
  .next (s.deskMessage (.lineRetry tag site) 0x26#8 tag (Work.retryLine site))

/-- A COLOUR_CLEAR (R99). -/
def Work.colourClear (site slot : Byte) (w : Work) : Work × Result :=
  match siteOf site with
  | none => (w, .badArgument)
  | some i =>
    match slotOf slot with
    | none => (w, .badSlot)
    | some k => if (w.check i k).hold then (w.clearHold i k .desk, .ok) else (w, .notHeld)

def execColourClear (tag site slot : Byte) (s : State) : Host.Outcome State Fault Refusal :=
  .next (s.deskMessage (.colourClear tag site slot) 0x27#8 tag (Work.colourClear site slot))

end Sys2Proof.Machine
end

