-- ==== Sys2Proof/Machine/Admission.lean ====
section
/-! DEFINITION. Admission (R104 to R109): the need of the backlog's head, and the entries its admission creates, removes and aborts. -/

namespace Sys2Proof.Machine

/-- The sites an edition is not CLOSED at, of a mask. -/
def Work.openSites (w : Work) (key : PageKey) (mask : SiteSet) : SiteSet := SiteSet.less mask (w.closedSites key.title key.edition)

/-- The need of an item (R104). -/
def Work.need (w : Work) (i : BacklogItem) : Nat :=
  match w.findPage i.key with
  | none => 0
  | some p =>
    let n := w.openSites i.key p.declMask
    let o := w.openSites i.key p.oldMask
    match i.kind with
    | .release => p.colour.seps.length * SiteSet.count n + SiteSet.count (n ||| o)
    | .reseed => p.colour.seps.length * SiteSet.count i.sites + SiteSet.count i.sites
    | .withdraw => SiteSet.count i.sites

/-- Step 1 of R106: the page's PLATE entries at a site, of any version. -/
def Work.supersede (c : ConfigWords) (key : PageKey) (s : Site) (w : Work) : Work :=
  w.dealWithAll c .mark .superseded s (Entry.plateOfPage key)

/-- Step 2 of R106: a QUEUED WITHDRAW of the page at a site is freed. -/
def Work.dropWithdraw (key : PageKey) (s : Site) (w : Work) : Work :=
  w.each (fun e => Work.freeEntry .mark e.number) ((w.queue s).filter (fun e => e.withdrawOfPage key && e.state == .queued))

/-- Step 3 of R106: one PLATE entry for each separation of the released version. -/
def Work.createPlates (p : PageRec) (r : Released) (s : Site) (w : Work) : Work :=
  w.each (fun sep w => match r.images.get sep with
    | some id => w.createPlate s p.key r sep id
    | none => w) p.colour.seps

/-- Steps 3 and 4 of R106: the plates of a site, and the TARGET entry they wait for. -/
def Work.supply (p : PageRec) (r : Released) (s : Site) (w : Work) : Work := (w.createPlates p r s).lookWant .now s r.slot

/-- The queue of a site holds a WITHDRAW entry of the page. -/
def Work.hasWithdraw (w : Work) (key : PageKey) (s : Site) : Bool := w.entries.any (fun e => e.withdrawOfPage key && e.site == s)

/-- A WITHDRAW entry created where the site holds a version and no WITHDRAW waits (R107, R109). -/
def Work.withdrawAt (p : PageRec) (s : Site) (w : Work) : Work :=
  if Nat.blt 0 (p.site s).held && !w.hasWithdraw p.key s then w.createWithdraw s p.key (p.site s).held else w

/-- The entry work of a RELEASE at the sites of N (R106). -/
def Work.releaseAt (c : ConfigWords) (p : PageRec) (r : Released) (s : Site) (w : Work) : Work :=
  ((w.supersede c p.key s).dropWithdraw p.key s).supply p r s

/-- The entry work of a RELEASE at the sites of O that are not in N (R107). -/
def Work.leaveAt (c : ConfigWords) (p : PageRec) (s : Site) (w : Work) : Work := (w.supersede c p.key s).withdrawAt p s

/-- The entry work of a RESEED at a site (R108). -/
def Work.reseedAt (c : ConfigWords) (p : PageRec) (r : Released) (s : Site) (w : Work) : Work := (w.supersede c p.key s).supply p r s

/-- A RELEASE item admitted: R14, then R106 and R107. N and O are taken from the page as it stood before the release. -/
def Work.admitRelease (c : ConfigWords) (before : PageRec) (w : Work) : Work :=
  let n := w.openSites before.key before.declMask
  let o := w.openSites before.key before.oldMask
  let w := w.releasePage before.key
  match w.findPage before.key with
  | none => w
  | some p =>
    match p.released with
    | none => w
    | some r => (w.each (Work.releaseAt c p r) (SiteSet.toList n)).each (Work.leaveAt c p) (SiteSet.toList (SiteSet.less o n))

/-- A RESEED item admitted (R108). -/
def Work.admitReseed (c : ConfigWords) (p : PageRec) (sites : SiteSet) (w : Work) : Work :=
  match p.released with
  | none => w
  | some r => w.each (Work.reseedAt c p r) (SiteSet.toList sites)

/-- A WITHDRAW item admitted (R109). -/
def Work.admitWithdraw (p : PageRec) (sites : SiteSet) (w : Work) : Work := w.each (Work.withdrawAt p) (SiteSet.toList sites)

/-- Steps 1 to 3 of an admission (R105). -/
def Work.admitItem (c : ConfigWords) (i : BacklogItem) (w : Work) : Work :=
  let w := w.dropItem i.key
  match w.findPage i.key with
  | none => w
  | some p =>
    match i.kind with
    | .release => w.admitRelease c p
    | .reseed => w.admitReseed c p i.sites
    | .withdraw => w.admitWithdraw p i.sites

/-- Attempts one after another while the free records cover the head's need; marked wants are served after each (R105). -/
def Work.admitWhile (c : ConfigWords) : Nat → Work → Work
  | 0, w => w
  | fuel + 1, w =>
    match w.backlog with
    | [] => w
    | i :: _ => if w.need i ≤ w.freeRecords then Work.admitWhile c fuel (w.admitItem c i).serveMarkedWants else w

/-- Admission attempted: marked wants come first, then the heads in turn (R105, R113, step 5). -/
def Work.admission (c : ConfigWords) (w : Work) : Work :=
  let w := w.serveMarkedWants
  w.admitWhile c w.backlog.length

end Sys2Proof.Machine
end

