-- ==== Sys2Proof/Machine/InternalSteps.lean ====
section
/-! DEFINITION. The part's own steps (log 4): the edition clock and cut-offs, the freeing of a retired edition, admission and target
wants, hand-overs, frames leaving a line, band reads answered, the scrub, and a retrain owed. -/

namespace Sys2Proof.Machine

/-- A RETIRING edition that no entry names is freed (R80). -/
def execEditionFreed (t : Title) (edition : Byte) (s : State) : Host.Outcome State Fault Refusal :=
  s.onWork (Work.freeEdition t edition.toNat)

/-- One second of the edition clock: while SET it rises by 1, to its largest value at most, and the cut-offs passed expire (R69). -/
def Work.clockSecond (w : Work) : Work :=
  if w.clock.set && Nat.blt w.clock.value max32 then
    ({ w with clock := { w.clock with value := w.clock.value + 1 } } : Work).expirePassed
  else w

def execClockSecond (s : State) : Host.Outcome State Fault Refusal := s.onWork Work.clockSecond

/-- The first armed cut-off expires, if it has passed (R72). -/
def execCutoffExpiry (s : State) : Host.Outcome State Fault Refusal := s.onWork Work.expireFirst

/-- The training a desk retry left to the end of a transfer begins (R161). -/
def execPendingRetrain (i : Site) (s : State) : Host.Outcome State Fault Refusal := s.onWork (Work.pendingRetrain i)

/-- Admission attempted at the head of the backlog (R105). -/
def execAdmission (s : State) : Host.Outcome State Fault Refusal := s.onWork (Work.admission s.config)

/-- The marked target wants served while records remain (R119). -/
def execTargetWantServed (s : State) : Host.Outcome State Fault Refusal := s.onWork Work.serveMarkedWants

/-- A look for a hand-over on a line (R122, R131). -/
def execHandOver (i : Site) (s : State) : Host.Outcome State Fault Refusal := s.onWork (Work.handOver s.config i)

/-- The frame in transmission has left the line (R128, R131, R134). -/
def Work.frameLeftLine (c : ConfigWords) (i : Site) (w : Work) : Work :=
  match (w.engine i).tx with
  | [] => w
  | f :: rest => (w.modEngine i (fun e => { e with tx := rest, lineOut := f.words })).frameLeft c i f

def execFrameLeftLine (i : Site) (s : State) : Host.Outcome State Fault Refusal := s.onWork (Work.frameLeftLine s.config i)

/-- The oldest band read of a line is answered from the DRAM (R60, R134). -/
def execBandReadDone (i : Site) (ecc : EccOutcome) (s : State) : Host.Outcome State Fault Refusal :=
  s.onWork (Work.bandReadDone s.config s.dram i ecc)

/-- The scrub's 125 ms step (R63). -/
def execScrub (ecc : EccOutcome) (s : State) : Host.Outcome State Fault Refusal := s.onWork (Work.scrub ecc)

end Sys2Proof.Machine
end

