-- ==== Sys2Proof/Machine/Receiver.lean ====
section
/-! DEFINITION. The receivers of the site lines (R157, R158, R189, R190): the delimiting of frames by their header length, the judging of
a frame as bad or sound, the command a sound frame stands for, and the loss of framing. -/

namespace Sys2Proof.Machine

/-! ### The parts of a delimited frame (R189): its words from the header word on -/

/-- The type in a header word. -/
def headerType (h : Word) : Byte := h.extractLsb' 24 8

/-- The transfer tag in a header word. -/
def headerTag (h : Word) : Byte := h.extractLsb' 16 8

/-- The body length in words in a header word. -/
def headerWords (h : Word) : Nat := (h.extractLsb' 0 16).toNat

/-- The header length is above the largest the line envelope allows (R157, R189). -/
def headerOverlong (h : Word) : Bool := Nat.blt frameLimit (headerWords h)

/-- The words of a frame that follow its header word: the body words and the CRC word, or none where the frame ends at its header word
(R158, R189). -/
def wordsAfterHeader (h : Word) : Nat := if headerOverlong h then 0 else headerWords h + 1

/-- The words are those of one frame, whole: a header word, and as many words as it calls for. -/
def frameWhole : List Word → Bool
  | [] => false
  | h :: rest => rest.length == wordsAfterHeader h

/-- The CRC word a header word and its body words take (R189, R190). -/
def frameCrc (h : Word) (body : List Word) : Word := ((h :: body).foldl crc16Word 0xFFFF#16).setWidth 32

/-- The CRC word agrees: the CRC-16 in bits 15 to 0, and 0 in bits 31 to 16 (R157, R189). -/
def crcWordOk : List Word → Bool
  | [] => false
  | h :: rest => rest.getLast? == some (frameCrc h rest.dropLast)

/-- A whole frame is bad: its header length is too large, or its CRC word does not agree (R157, R189). -/
def frameBad (words : List Word) : Bool := frameWhole words && !crcWordOk words

/-! ### The command a sound frame stands for (R189) -/

/-- The readings a reading word holds, the first in bits 31 to 16. -/
def wordHalves (w : Word) : List (BitVec 16) := [w.extractLsb' 16 16, w.extractLsb' 0 16]

/-- The command of an inbound frame by its type and tag, its first body word and the body words after it; the bits of no field are not
read (log 60). -/
def inboundFrame (i : Site) (type tag : Byte) (w : Word) (rest : List Word) : Instr :=
  match type.toNat with
  | 0x81 => .openAck i tag (w.extractLsb' 0 16)
  | 0x82 => .bandAck i tag (w.extractLsb' 0 16)
  | 0x83 => .plateDone i tag
  | 0x84 => .plateRefused i tag w
  | 0x85 => .abortAck i tag
  | 0x86 => .targetHeld i (w.extractLsb' 24 8) (w.extractLsb' 0 16)
  | 0x87 => .withdrawAck i tag
  | 0x88 => .pressRun i (w.extractLsb' 24 8) (w.extractLsb' 16 8)
  | 0x89 => .measure i (w.extractLsb' 24 8) (w.extractLsb' 16 8) (w.extractLsb' 0 16) (rest.flatMap wordHalves)
  | _ => .siteRestart i

/-- The command of a sound frame by its type, tag and body words; a type that is not inbound, or a length that does not agree with its
type, is a frame the protocol does not allow. -/
def soundFrame (i : Site) (type tag : Byte) (body : List Word) : Instr :=
  if inboundLengthOk type body.length then inboundFrame i type tag (body.headD 0#32) body.tail
  else .frameNotInbound i type (BitVec.ofNat 16 body.length)

/-- The command a delimited frame stands for: BAD_FRAME, or the sound frame's. -/
def frameCommand (i : Site) (words : List Word) : Instr :=
  if frameBad words then .badFrame { line := i, words := words }
  else
    match words with
    | [] => .badFrame { line := i, words := [] }
    | h :: rest => soundFrame i (headerType h) (headerTag h) rest.dropLast

/-! ### Delimiting and framing (R158) -/

/-- Word positions that lose the framing (R158). -/
def lostLimit : Nat := 32

/-- A word position outside a frame that holds neither the idle word nor the first word of a frame's sync (R158). -/
def positionLost (p : Option Word) : Bool := p != some idleWord && p != some syncWord

/-- Positions that lose the framing (R158). -/
def framingLost (ps : List (Option Word)) : Bool := ps.length == lostLimit && ps.all positionLost

/-- A word position outside a frame (R158): a sync begins a frame, and the 32nd lost position in a row is a FRAMING_LOSS. -/
def Receiver.outside (i : Site) (p : Option Word) (r : Receiver) : Receiver × Option Instr :=
  if p == some syncWord then ({ r with inFrame := true, frame := [], lost := [] }, none)
  else if positionLost p then
    let lost := r.lost ++ [p]
    if framingLost lost then ({ r with lost := [] }, some (.framingLoss { line := i, positions := lost }))
    else ({ r with lost := lost }, none)
  else ({ r with lost := [] }, none)

/-- A word position within a frame: a frame that is whole ends and becomes its command; a position without a word leaves the frame as it
is (R158, log 49). -/
def Receiver.within (i : Site) (p : Option Word) (r : Receiver) : Receiver × Option Instr :=
  match p with
  | none => (r, none)
  | some w =>
    let frame := r.frame ++ [w]
    if frameWhole frame then (.reset, some (frameCommand i frame)) else ({ r with frame := frame }, none)

/-- One word position of a line in service. -/
def Receiver.take (i : Site) (p : Option Word) (r : Receiver) : Receiver × Option Instr :=
  if r.inFrame then r.within i p else r.outside i p

/-- Word positions one after another, with the commands they make. -/
def Receiver.takeAll (i : Site) : List (Option Word) → Receiver → Receiver × List Instr
  | [], r => (r, [])
  | p :: ps, r =>
    let x := r.take i p
    let y := x.1.takeAll i ps
    (y.1, x.2.toList ++ y.2)

/-- The machine after a word position of a line: in training the position is a TRAIN_WORD_PERIOD, in service the receiver takes it, and
the command it makes waits behind those that came before; in DOWN nothing is received (R129, R150, R152, R158, log 49). -/
def State.lineWord (i : Site) (p : Option Word) (s : State) : State :=
  let q := s.work.qual i
  match q.level with
  | .down => s
  | .training => { s with pending := s.pending ++ [.trainWordPeriod i p] }
  | .up | .degraded =>
    let r := q.receiver.take i p
    { s.setWork (s.work.setQual i { q with receiver := r.1 }) with pending := s.pending ++ r.2.toList }

end Sys2Proof.Machine
end

