-- ==== Sys2Proof/Machine/LineFrames.lean ====
section
/-! DEFINITION. Inbound frames of the site lines (R129): each is counted in the in-service window and taken by the engine. -/

namespace Sys2Proof.Machine

def execOpenAck (i : Site) (tag : Byte) (resume : BitVec 16) (s : State) : Host.Outcome State Fault Refusal :=
  s.onWork (Work.inbound i (Work.openAck s.config i tag resume.toNat))

def execBandAck (i : Site) (tag : Byte) (count : BitVec 16) (s : State) : Host.Outcome State Fault Refusal :=
  s.onWork (Work.inbound i (Work.bandAck s.config i tag count.toNat))

def execPlateDone (i : Site) (tag : Byte) (s : State) : Host.Outcome State Fault Refusal :=
  s.onWork (Work.inbound i (Work.plateDone i tag))

def execPlateRefused (i : Site) (tag : Byte) (reason : Word) (s : State) : Host.Outcome State Fault Refusal :=
  s.onWork (Work.inbound i (Work.plateRefused i tag reason))

def execAbortAck (i : Site) (tag : Byte) (s : State) : Host.Outcome State Fault Refusal :=
  s.onWork (Work.inbound i (Work.abortAck i tag))

def execTargetHeld (i : Site) (slot : Byte) (generation : BitVec 16) (s : State) : Host.Outcome State Fault Refusal :=
  s.onWork (Work.inbound i (Work.targetHeld i slot generation.toNat))

def execWithdrawAck (i : Site) (tag : Byte) (s : State) : Host.Outcome State Fault Refusal :=
  s.onWork (Work.inbound i (Work.withdrawAck i tag))

def execPressRun (i : Site) (title edition : Byte) (s : State) : Host.Outcome State Fault Refusal :=
  s.onWork (Work.inbound i (Work.runPress i title edition))

def execMeasure (i : Site) (slot count : Byte) (generation : BitVec 16) (halves : List (BitVec 16)) (s : State) :
    Host.Outcome State Fault Refusal :=
  s.onWork (Work.inbound i (Work.takeMeasure s.config i slot count generation.toNat halves))

def execSiteRestart (i : Site) (s : State) : Host.Outcome State Fault Refusal :=
  s.onWork (Work.inbound i (Work.restartSite i))

/-- A frame of a type that is not inbound, or of a length that does not agree with its type: a protocol error when it is sound, and a bad
frame when its header length is above the largest (R130, R157, R189). -/
def execFrameNotInbound (i : Site) (frameType : Byte) (bodyWords : BitVec 16) (s : State) : Host.Outcome State Fault Refusal :=
  if Nat.blt frameLimit bodyWords.toNat then s.onWork (Work.badFrame s.config i)
  else if inboundLengthOk frameType bodyWords.toNat then .next s
  else s.onWork (Work.inbound i (Work.protocolError i))

/-- A bad frame in service (R157); words that make no bad frame change nothing (log 35). -/
def execBadFrame (f : LineFrame) (s : State) : Host.Outcome State Fault Refusal :=
  if frameBad f.words then s.onWork (Work.badFrame s.config f.line) else .next s

end Sys2Proof.Machine
end

