-- ==== Sys2Proof/Machine/LineTimers.lean ====
section
/-! DEFINITION. The timers of the lines, the loss of framing, and the events of training (chapters 7 and 8). -/

namespace Sys2Proof.Machine

def execTAckExpiry (i : Site) (s : State) : Host.Outcome State Fault Refusal := s.onWork (Work.tAckExpiry s.config i)

def execTConfExpiry (i : Site) (s : State) : Host.Outcome State Fault Refusal := s.onWork (Work.tConfExpiry i)

/-- A loss of framing in service (R158); positions that lose no framing change nothing (log 35). -/
def execFramingLoss (g : LineGap) (s : State) : Host.Outcome State Fault Refusal :=
  if framingLost g.positions then s.onWork (Work.framingLoss g.line) else .next s

def execTrainWordPeriod (i : Site) (received : Option Word) (s : State) : Host.Outcome State Fault Refusal :=
  s.onWork (Work.trainWord s.config i received)

def execAttemptNoLock (i : Site) (s : State) : Host.Outcome State Fault Refusal := s.onWork (Work.noLock s.config i)

def execAttemptStuck (i : Site) (s : State) : Host.Outcome State Fault Refusal := s.onWork (Work.attemptStuck s.config i)

def execMeasureWindowEnd (i : Site) (s : State) : Host.Outcome State Fault Refusal := s.onWork (Work.windowEnd s.config i)

def execTRetryExpiry (i : Site) (s : State) : Host.Outcome State Fault Refusal := s.onWork (Work.tRetryExpiry i)

end Sys2Proof.Machine
end

