-- ==== Sys2Proof/Machine/PortEvents.lean ====
section
/-! DEFINITION. The events of the title ports and the Desk Port (chapter 9). -/

namespace Sys2Proof.Machine

/-- A word strobed by a title system: taken while the ready line is asserted (R166). -/
def execTitleWordIn (t : Title) (word : Word) (s : State) : Host.Outcome State Fault Refusal :=
  if titleReady s t then .next (s.modPort t (fun x => { x with buffer := x.buffer ++ [word] })) else .next s

/-- The assembler takes the next byte of the word at the head of the buffer, unless a complete message waits for its owner (R166,
R168). -/
def execAssemblerByte (t : Title) (s : State) : Host.Outcome State Fault Refusal :=
  let x := s.ports.get t
  match x.buffer with
  | [] => .next s
  | w :: _ =>
    if x.asm.complete then .next s
    else .next ((s.modPort t TitlePort.advance).giveByte (.title t) (laneByte x.byteOrder x.lane w))

/-- A title port's buffer and assembler after a resync, the RESYNC input asserted (R171). -/
def TitlePort.resynced (x : TitlePort) : TitlePort := { x with asm := .reset, buffer := [], lane := 0, resyncIn := true }

/-- RESYNC asserted (R171); in SETUP only the level of the input changes. -/
def execResync (t : Title) (s : State) : Host.Outcome State Fault Refusal :=
  match s.svc.phase with
  | .setup => .next (s.modPort t (fun x => { x with resyncIn := true }))
  | .run => (s.modPort t TitlePort.resynced).onWork (fun w => (w.parserResync t).toTitle t .portResynced)

/-- RESYNC released (R166). -/
def execResyncRelease (t : Title) (s : State) : Host.Outcome State Fault Refusal :=
  .next (s.modPort t (fun x => { x with resyncIn := false }))

/-- An outbound word of a title port sent (R166, R173). -/
def execOutboundWordSent (t : Title) (s : State) : Host.Outcome State Fault Refusal :=
  .next (s.setWork (s.work.setOut (.title t) ((s.work.outOf (.title t)).sendWord (s.ports.get t).byteOrder)))

/-- A character of the Desk Port sent (R173). -/
def execDeskCharacterSent (s : State) : Host.Outcome State Fault Refusal :=
  .next (s.setWork (s.work.setOut .desk (s.work.outOf .desk).sendChar))

/-- A character received with its stop bit low: dropped, or the SYNCED port stalls with cause FRAMING (R172). -/
def State.deskFramingError (s : State) : State :=
  match s.desk.asm.state with
  | .synced => (s.setAsm .desk .stalled).setWork (s.work.portStalled .desk .framing)
  | .idle | .stalled => s

/-- A character received on the Desk Port: dropped in SETUP, a byte for the assembler in RUN (R172, log 25). -/
def execDeskCharacter (char : Byte) (stopLow : Bool) (s : State) : Host.Outcome State Fault Refusal :=
  match s.svc.phase with
  | .setup => .next s
  | .run =>
    if s.desk.asm.complete then .next s
    else if stopLow then .next s.deskFramingError
    else .next (s.giveByte .desk char)

/-- A break: a resync of the Desk Port in RUN, nothing in SETUP (R172). -/
def execDeskBreak (s : State) : Host.Outcome State Fault Refusal :=
  match s.svc.phase with
  | .setup => .next s
  | .run => .next ((s.setAsm .desk .reset).setWork (s.work.toDesk .portResynced))

end Sys2Proof.Machine
end

