-- ==== Sys2Proof/Machine/ServiceCommands.lean ====
section
/-! DEFINITION. The commands of the Service Port and the hard reset input (chapter 10), and what a read of the window returns. -/

namespace Sys2Proof.Machine

/-! ### Resets (R181, R183) -/

/-- The state a hard reset leaves (R181): everything at its reset value but the DRAM's contents and the RESYNC input levels, which are
outside the part's reset, and the commands still waiting (log 2, log 27, log 29). -/
def State.hardReset (s : State) : State :=
  { State.reset with
    ports := { a := { TitlePort.reset with resyncIn := s.ports.a.resyncIn }, b := { TitlePort.reset with resyncIn := s.ports.b.resyncIn } },
    dram := s.dram, pending := s.pending }

/-- A title port after a soft restart: the byte order is kept (R165). -/
def TitlePort.restarted (x : TitlePort) : TitlePort := { TitlePort.reset with byteOrder := x.byteOrder, resyncIn := x.resyncIn }

/-- The working state after a soft restart: the extent count, the quotas and the line rates in effect are kept (R64, log 22). -/
def Work.restarted (w : Work) : Work :=
  Work.resetWith w.extentCount w.quota (w.quals.map (fun q => Qualifier.resetAt q.lineRate))

/-- The state a soft restart leaves (R183). -/
def State.softRestart (s : State) : State :=
  { s with
    svc := { s.svc with phase := .setup, status := .accepted, refusedItem := 0 },
    ports := { a := s.ports.a.restarted, b := s.ports.b.restarted },
    desk := { DeskPort.reset with baud := s.desk.baud },
    work := s.work.restarted }

def execHardReset (s : State) : Host.Outcome State Fault Refusal := .next s.hardReset

def execSoftRestart (s : State) : Host.Outcome State Fault Refusal := .next s.softRestart

/-! ### START (R182) -/

def State.setStatus (st : CommandStatus) (s : State) : State := { s with svc := { s.svc with status := st } }

/-- A refused START (R182). -/
def State.startRefused (addr : Nat) (s : State) : State :=
  { s with
    svc := { s.svc with status := .refused, refusedItem := addr },
    work := s.work.raiseError (fun e => { e with configRefused := true }) }

/-- What of the configuration takes effect in the working state at START (R182, steps 2 and 3). -/
def Work.started (c : ConfigWords) (w : Work) : Work :=
  { w with
    extentCount := extentsOf (cfg c .dramSize), freeExtents := extentsOf (cfg c .dramSize), scrubPos := 0,
    quota := { a := cfg c .quotaA, b := cfg c .quotaB },
    quals := Vector.ofFn (fun i => { tget w.quals i with lineRate := cfg c (.lineRate i) }) }

/-- An accepted START (R182); the lines begin training in site order (log 55). -/
def State.startAccepted (s : State) : State :=
  { s with
    svc := { s.svc with status := .accepted, refusedItem := 0, phase := .run },
    ports :=
      { a := { s.ports.a with byteOrder := byteOrderOf (cfg s.config .byteOrderA) },
        b := { s.ports.b with byteOrder := byteOrderOf (cfg s.config .byteOrderB) } },
    desk := { s.desk with baud := cfg s.config .baud },
    work := (s.work.started s.config).each (Work.beginTraining .start) allSites }

/-- START (R182). -/
def execStart (s : State) : Host.Outcome State Fault Refusal :=
  match s.svc.phase with
  | .run => .next (s.setStatus .wrongPhase)
  | .setup =>
    match refusedItem s.config with
    | some addr => .next (s.startRefused addr)
    | none => .next s.startAccepted

/-! ### One-shot line commands -/

/-- LINE_RESET (R162, R182). -/
def execLineReset (site : Byte) (s : State) : Host.Outcome State Fault Refusal :=
  match siteOf site with
  | none => .next (s.setStatus .badSite)
  | some i =>
    match s.svc.phase with
    | .run => (s.setStatus .accepted).onWork (Work.lineReset i)
    | .setup => (s.setStatus .accepted).onWork (Work.clearLine i)

/-- The snapshot of a line (R164). -/
def Work.snapshotOf (w : Work) (i : Site) : Snapshot :=
  let q := w.qual i
  let e := w.engine i
  { counters := q.counters, lineFailures := e.lineFailures, strayFrames := e.strayFrames, level := q.level, attempt := q.attempt,
    verdict := q.verdict }

def Work.capture (i : Site) (w : Work) : Work := w.modQual i (fun q => { q with snapshot := w.snapshotOf i })

/-- CAPTURE (R164, R182). -/
def execCapture (site : Byte) (s : State) : Host.Outcome State Fault Refusal :=
  match siteOf site with
  | none => .next (s.setStatus .badSite)
  | some i => (s.setStatus .accepted).onWork (Work.capture i)

/-- A write of any other command code (R182). -/
def execUnknownCommand (_code : Byte) (s : State) : Host.Outcome State Fault Refusal := .next (s.setStatus .unknown)

/-! ### Writes and reads of the window as commands (R178) -/

/-- The command a word written to 0x011 holds: its code in bits 31 to 24, a site in bits 7 to 0. -/
def commandWord (v : Word) : Instr :=
  let code : Byte := v.extractLsb' 24 8
  let site : Byte := v.extractLsb' 0 8
  match code.toNat with
  | 0x01 => .start
  | 0x02 => .softRestart
  | 0x03 => .lineReset site
  | 0x04 => .capture site
  | _ => .unknownCommand code

/-- The command a write of the window stands for. -/
def windowWrite (addr : BitVec 12) (v : Word) : Instr :=
  match addr.toNat with
  | 0x011 => commandWord v
  | 0x022 => .attentionEnableWrite v
  | _ => .configWrite addr v

/-- The command a read of the window stands for: the two reads that clear what they return have one, every other changes nothing. -/
def windowReadCommand (addr : BitVec 12) : Option Instr :=
  match addr.toNat with
  | 0x020 => some .errorReportRead
  | 0x021 => some .attentionRead
  | _ => none

/-- The machine with a write of the window waiting behind the commands that came before it (log 34). -/
def State.windowWritten (addr : BitVec 12) (v : Word) (s : State) : State :=
  { s with pending := s.pending ++ [windowWrite addr v] }

/-! ### Configuration (R178 to R180) -/

/-- A write of an item that is taken; a changed W is used at the band decision it allows at once (R134, R180). -/
def State.writeItem (i : ConfigItem) (v : Word) (s : State) : State :=
  let c := setCfg s.config i v
  { s with config := c, work := if i == .window then s.work.pumpAll c else s.work }

/-- CONFIG_WRITE: an address that no item has is ignored (R178 to R180), one with read access only too (log 59). -/
def execConfigWrite (addr : BitVec 12) (v : Word) (s : State) : Host.Outcome State Fault Refusal :=
  match ConfigItem.ofAddr addr.toNat with
  | none => .next s
  | some i =>
    match s.svc.phase with
    | .setup => .next { s with config := setCfg s.config i v }
    | .run => if runWriteOk s.config i v.toNat then .next (s.writeItem i v) else .next s

/-! ### Reads (R178, R184 to R186) -/

/-- A word of a site's block at an offset (R186). -/
def Work.siteWord (w : Work) (i : Site) (offset : Nat) : Word :=
  let q := w.qual i
  let e := w.engine i
  let x := tget w.siteCounters i
  let n := q.snapshot
  match offset with
  | 0x00 => BitVec.ofNat 32 q.counters.words
  | 0x01 => BitVec.ofNat 32 q.counters.errors
  | 0x02 => BitVec.ofNat 32 q.counters.lockLosses
  | 0x03 => BitVec.ofNat 32 q.counters.attempts
  | 0x04 => BitVec.ofNat 32 q.counters.badFrames
  | 0x05 => BitVec.ofNat 32 e.lineFailures
  | 0x06 => BitVec.ofNat 32 e.strayFrames
  | 0x08 => BitVec.ofNat 32 x.strayPressRuns
  | 0x09 => BitVec.ofNat 32 x.strayTargets
  | 0x0A => BitVec.ofNat 32 x.staleMeasures
  | 0x0B => BitVec.ofNat 32 x.latePlates
  | 0x10 => BitVec.ofNat 32 n.counters.words
  | 0x11 => BitVec.ofNat 32 n.counters.errors
  | 0x12 => BitVec.ofNat 32 n.counters.lockLosses
  | 0x13 => BitVec.ofNat 32 n.counters.attempts
  | 0x14 => BitVec.ofNat 32 n.counters.badFrames
  | 0x15 => BitVec.ofNat 32 n.lineFailures
  | 0x16 => BitVec.ofNat 32 n.strayFrames
  | 0x17 =>
    if n.level == .down && n.attempt == 0 && n.verdict == .none then 0#32
    else Config.snapshotWord n.level.code n.attempt n.verdict.verdict.code n.verdict.errors
  | _ => 0#32

/-- The word a read of the window returns (R178); an address that is not assigned reads 0, and so does the write-only 0x011 (log 54). -/
def windowRead (addr : BitVec 12) (s : State) : Word :=
  match addr.toNat with
  | 0x000 => 0x0A1D#32
  | 0x001 => 0x0820#32
  | 0x002 => 0x0001#32
  | 0x010 => s.svc.statusWord
  | 0x012 => BitVec.ofNat 32 s.svc.refusedItem
  | 0x020 => s.work.errors.word
  | 0x021 => s.work.attention.word
  | 0x022 => s.svc.enables.word
  | 0x030 => BitVec.ofNat 32 s.work.corrected
  | 0x031 => BitVec.ofNat 32 s.work.uncorrectable
  | a =>
    match ConfigItem.ofAddr a with
    | some i => tget s.config i.index
    | none => if h : a / 32 - 8 < 8 then if 256 ≤ a then s.work.siteWord ⟨a / 32 - 8, h⟩ (a % 32) else 0#32 else 0#32

def State.setRead (v : Word) (s : State) : State := { s with svc := { s.svc with readData := v } }

/-- A read of the error report: the flags as they stand are returned and cleared (R184). -/
def execErrorReportRead (s : State) : Host.Outcome State Fault Refusal :=
  (s.setRead s.work.errors.word).onWork (fun w => { w with errors := .clear })

/-- A read of the attention flags: the three flags are returned and cleared (R185). -/
def execAttentionRead (s : State) : Host.Outcome State Fault Refusal :=
  (s.setRead s.work.attention.word).onWork (fun w => { w with attention := .clear })

/-- A write of the attention enables (R185). -/
def execAttentionEnableWrite (v : Word) (s : State) : Host.Outcome State Fault Refusal :=
  .next { s with svc := { s.svc with enables := Attention.ofWord v } }

end Sys2Proof.Machine
end

