-- ==== Sys2Proof/Machine/TitleMessages.lean ====
section
/-! DEFINITION. The messages of the title ports: EDITION_DECLARE, EDITION_RETIRE, PAGE_DECLARE, the three messages of a submission, and
TARGET_LOAD. -/

namespace Sys2Proof.Machine

/-! ### EDITION_DECLARE (R67, R68) -/

/-- The cut-off of a press start at a site: the press start less the site's margin, 0 when the margin is larger (R67). -/
def cutoffOf (c : ConfigWords) (s : Site) (pressStart : Word) : Nat := pressStart.toNat - 60 * cfg c (.margin s)

/-- No site is named twice. -/
def distinctSites : List SiteDecl → Bool
  | [] => true
  | d :: ds => !ds.any (fun x => x.site == d.site) && distinctSites ds

/-- Check 1 of R67. -/
def declArgumentsOk (edition : Byte) (ds : List SiteDecl) : Bool :=
  editionOk edition.toNat && ds.all (fun d => (siteOf d.site).isSome && Nat.ble d.pageCount.toNat 128) && distinctSites ds

/-- The list names a site. -/
def listNames (ds : List SiteDecl) (s : Site) : Bool := ds.any (fun d => siteOf d.site == some s)

/-- The site's queue holds a dispatch entry of the edition. -/
def Work.siteQueued (w : Work) (t : Title) (code : Nat) (s : Site) : Bool :=
  w.entries.any (fun e => e.site == s && e.namesEdition t code)

/-- A site of the site set that the list omits is still in use (R67, check 4). -/
def Work.omitsUsed (w : Work) (r : EditionRec) (ds : List SiteDecl) : Bool :=
  allSites.any (fun s => (tget r.sites s).isSome && !listNames ds s
    && (r.siteIs .closed s || w.siteNamed r.title r.code s || w.siteQueued r.title r.code s))

/-- The first check of R67 that an EDITION_DECLARE fails. -/
def Work.declareFault (t : Title) (edition : Byte) (ds : List SiteDecl) (w : Work) : Option Result :=
  if !declArgumentsOk edition ds then some .badArgument
  else if ds.isEmpty then some .badMask
  else
    match w.findEdition t edition.toNat with
    | some r =>
      if r.state != .opened then some .editionClosed
      else if w.omitsUsed r ds then some .siteInUse
      else none
    | none => if Nat.ble editionLimit w.editions.length then some .tableFull else none

/-- A site added to an edition: WAITING, its cut-off armed (R67, R68). -/
def Work.addSite (c : ConfigWords) (t : Title) (code : Nat) (s : Site) (d : SiteDecl) (w : Work) : Work :=
  let cutoff := cutoffOf c s d.pressStart
  (w.setEditionSite t code s (some
    { pressStart := d.pressStart.toNat, cutoff := cutoff, pageCount := d.pageCount.toNat, delivered := 0, state := .waiting,
      lateMark := false })).arm t code s cutoff

/-- The effect of a recomputed cut-off by the edition-site's state (R68). -/
def Work.moveCutoff (t : Title) (code : Nat) (s : Site) (old new : Nat) (st : SiteState) (w : Work) : Work :=
  match st with
  | .waiting => w.moveDeadline t code s new
  | .late =>
    if Nat.blt old new && !w.cutoffPassed new then
      ((w.modEditionSite t code s (fun x => { x with state := .waiting })).setLateFlags t code s false).arm t code s new
    else w
  | .ready | .running | .closed => w

/-- A site in both the list and the site set: the times, then the page count, then readiness, then the entries' deadlines (R68,
log 10). -/
def Work.updateSite (c : ConfigWords) (t : Title) (code : Nat) (s : Site) (d : SiteDecl) (x : EditionSite) (w : Work) : Work :=
  let cutoff := cutoffOf c s d.pressStart
  let w := w.modEditionSite t code s (fun x => { x with pressStart := d.pressStart.toNat, cutoff := cutoff })
  let w := w.moveCutoff t code s x.cutoff cutoff x.state
  let w := w.modEditionSite t code s (fun x => { x with pageCount := d.pageCount.toNat })
  let w := w.evaluateReadiness t code s
  if cutoff != x.cutoff && x.state != .closed then w.giveDeadline t code s cutoff else w

/-- One site record of the list (R67, R68). -/
def Work.declareSite (c : ConfigWords) (t : Title) (code : Nat) (d : SiteDecl) (w : Work) : Work :=
  match siteOf d.site with
  | none => w
  | some s =>
    match w.editionSite t code s with
    | none => w.addSite c t code s d
    | some x => w.updateSite c t code s d x

/-- A site taken off an edition (R68). -/
def Work.removeSite (t : Title) (code : Nat) (s : Site) (w : Work) : Work := (w.disarm t code s).setEditionSite t code s none

/-- A new edition record, or the record without the sites the list omits. -/
def Work.prepareEdition (t : Title) (code : Nat) (ds : List SiteDecl) (w : Work) : Work :=
  match w.findEdition t code with
  | none =>
    { w with
      editions := w.editions ++ [{ title := t, code := code, state := .opened, hold := false, sites := Vector.replicate 8 none }] }
  | some r => w.each (Work.removeSite t code) (allSites.filter (fun s => (tget r.sites s).isSome && !listNames ds s))

/-- An EDITION_DECLARE (R67, R68). DECLARE_RESULT follows the notices its effects bring (log 39), and an edition left with CLOSED sites
only stays OPEN (log 40). -/
def Work.editionDeclare (c : ConfigWords) (t : Title) (edition : Byte) (ds : List SiteDecl) (w : Work) : Work :=
  match w.declareFault t edition ds with
  | some r => w.toTitle t (.editionDeclareResult edition.toNat r)
  | none =>
    ((w.prepareEdition t edition.toNat ds).each (Work.declareSite c t edition.toNat) ds).toTitle t
      (.editionDeclareResult edition.toNat .ok)

def execEditionDeclare (t : Title) (edition : Byte) (ds : List SiteDecl) (s : State) : Host.Outcome State Fault Refusal :=
  .next (s.message (.title t) (.editionDeclare t edition ds) (Work.editionDeclare s.config t edition ds))

/-! ### EDITION_RETIRE (R79) -/

/-- The retire of a CLOSED edition (R79). -/
def Work.retireEdition (t : Title) (code : Nat) (w : Work) : Work :=
  ((((w.modEdition t code (fun r => { r with state := .retiring })).retirePages t code).toTitle t (.retireResult .ok)).freeEdition t code)

/-- An EDITION_RETIRE (R79). -/
def Work.editionRetire (t : Title) (edition : Byte) (w : Work) : Work :=
  if !editionOk edition.toNat then w.toTitle t (.retireResult .badArgument)
  else
    match w.editionState t edition.toNat with
    | none => w.toTitle t (.retireResult .noEdition)
    | some .opened => w.toTitle t (.retireResult .notClosed)
    | some .retiring => w.toTitle t (.retireResult .ok)
    | some .closed => w.retireEdition t edition.toNat

def execEditionRetire (t : Title) (edition : Byte) (s : State) : Host.Outcome State Fault Refusal :=
  .next (s.message (.title t) (.editionRetire t edition) (Work.editionRetire t edition))

/-! ### PAGE_DECLARE (R3, R4) -/

/-- The settings a PAGE_DECLARE carries, when its fields pass checks 1 and 2 of R3. -/
structure PageDecl where
  key : PageKey
  colour : Colour
  mask : SiteSet
  slot : SlotNo
deriving DecidableEq, Repr

/-- The mask is empty or names a site outside a site set. -/
def maskBad (mask set : SiteSet) : Bool := mask == 0#8 || SiteSet.less mask set != 0#8

/-- Checks 3 to 8 of R3. -/
def Work.pageFault (w : Work) (d : PageDecl) : Option Result :=
  match w.findEdition d.key.title d.key.edition with
  | none => some .noEdition
  | some r =>
    if r.state != .opened then some .editionClosed
    else if maskBad d.mask r.siteSet then some .badMask
    else
      match w.findPage d.key with
      | some p =>
        if p.state == .killed then some .pageKilled
        else if d.colour != p.colour && (p.state == .live || p.candidate.isSome) then some .liveLocked
        else none
      | none => if Nat.ble pageLimit w.pages.length then some .tableFull else none

/-- A page record as it is taken (R3). -/
def PageRec.fresh (d : PageDecl) : PageRec :=
  { key := d.key, colour := d.colour, declMask := d.mask, declSlot := d.slot, state := .opened, released := none, candidate := none,
    sites := Vector.replicate 8 { held := 0, progress := 0#4 } }

/-- The membership after a changed declared mask (R4). -/
def Work.maskChanged (p : PageRec) (w : Work) : Work :=
  match w.findItem p.key with
  | some i => if i.kind == .release || p.releasable then w.joinRelease p.key else w
  | none => if p.releasable then w.joinRelease p.key else w

/-- A PAGE_DECLARE that passes the checks: a record taken, or its declared settings updated (R3, R4). -/
def Work.declarePage (d : PageDecl) (w : Work) : Work :=
  match w.findPage d.key with
  | none => { w with pages := w.pages ++ [PageRec.fresh d] }
  | some p =>
    let w := w.modPage d.key (fun p => { p with colour := d.colour, declMask := d.mask, declSlot := d.slot })
    if d.mask == p.declMask then w else w.maskChanged p

/-- Checks 1 and 2 of R3: the settings, or the result. -/
def pageDeclOf (t : Title) (edition page colour mask slot : Byte) : Except Result PageDecl :=
  match colourOf colour, slotOf slot with
  | some c, k =>
    if editionOk edition.toNat && pageOk page.toNat then
      match k with
      | some k => .ok { key := { title := t, edition := edition.toNat, page := page.toNat }, colour := c, mask := mask, slot := k }
      | none => .error .badSlot
    else .error .badArgument
  | none, _ => .error .badArgument

/-- A PAGE_DECLARE (R3, R4). -/
def Work.pageDeclare (t : Title) (edition page colour mask slot : Byte) (w : Work) : Work :=
  let key : PageKey := { title := t, edition := edition.toNat, page := page.toNat }
  match pageDeclOf t edition page colour mask slot with
  | .error r => w.toTitle t (.declareResult key r)
  | .ok d =>
    match w.pageFault d with
    | some r => w.toTitle t (.declareResult key r)
    | none => (w.declarePage d).toTitle t (.declareResult key .ok)

def execPageDeclare (t : Title) (edition page colour mask slot : Byte) (s : State) : Host.Outcome State Fault Refusal :=
  .next (s.message (.title t) (.pageDeclare t edition page colour mask slot) (Work.pageDeclare t edition page colour mask slot))

/-! ### Submission messages (R32 to R44) -/

def execImageBegin (t : Title) (m : BeginMsg) (s : State) : Host.Outcome State Fault Refusal :=
  .next (s.message (.title t) (.imageBegin t m) (Work.imageBegin t m))

/-- A BAND taken: the parser and the Image Store act, and a stored band is written to the DRAM (R37, R54). -/
def State.takeBand (t : Title) (mark : Byte) (payload : List Byte) (s : State) : State :=
  match s.work.takeBand t mark payload with
  | (w, some a) => { s.setWork w with dram := writeBlock s.dram a (storedBand payload) }
  | (w, none) => s.setWork w

def execBand (t : Title) (mark : Byte) (payload : List Byte) (s : State) : Host.Outcome State Fault Refusal :=
  if s.takesMessage (.title t) (.band t mark payload) then .next ((s.messageTaken (.title t)).takeBand t mark payload) else .next s

def execImageEnd (t : Title) (total crc : Word) (s : State) : Host.Outcome State Fault Refusal :=
  .next (s.message (.title t) (.imageEnd t total crc) (Work.imageEnd t total.toNat crc))

/-! ### TARGET_LOAD (R84) -/

def execTargetLoad (t : Title) (m : LoadMsg) (s : State) : Host.Outcome State Fault Refusal :=
  .next (s.message (.title t) (.targetLoad t m) (Work.targetLoad s.config t m))

end Sys2Proof.Machine
end

