-- ==== Sys2Proof/Machine/Dispatch.lean ====
section
/-! DEFINITION. The effect of each command on everything but the queue: one arm for each row of spec/opcode_table.json. -/

namespace Sys2Proof.Machine

def exec (i : Instr) (s : State) : Host.Outcome State Fault Refusal :=
  match i with
  | .hardReset => Sys2Proof.Machine.execHardReset s
  | .start => Sys2Proof.Machine.execStart s
  | .softRestart => Sys2Proof.Machine.execSoftRestart s
  | .lineReset site => Sys2Proof.Machine.execLineReset site s
  | .capture site => Sys2Proof.Machine.execCapture site s
  | .unknownCommand code => Sys2Proof.Machine.execUnknownCommand code s
  | .configWrite addr value => Sys2Proof.Machine.execConfigWrite addr value s
  | .errorReportRead => Sys2Proof.Machine.execErrorReportRead s
  | .attentionRead => Sys2Proof.Machine.execAttentionRead s
  | .attentionEnableWrite value => Sys2Proof.Machine.execAttentionEnableWrite value s
  | .titleWordIn port word => Sys2Proof.Machine.execTitleWordIn port word s
  | .assemblerByte port => Sys2Proof.Machine.execAssemblerByte port s
  | .resync port => Sys2Proof.Machine.execResync port s
  | .resyncRelease port => Sys2Proof.Machine.execResyncRelease port s
  | .outboundWordSent port => Sys2Proof.Machine.execOutboundWordSent port s
  | .deskCharacterSent => Sys2Proof.Machine.execDeskCharacterSent s
  | .deskCharacter char stopLow => Sys2Proof.Machine.execDeskCharacter char stopLow s
  | .deskBreak => Sys2Proof.Machine.execDeskBreak s
  | .editionDeclare port edition sites => Sys2Proof.Machine.execEditionDeclare port edition sites s
  | .editionRetire port edition => Sys2Proof.Machine.execEditionRetire port edition s
  | .editionFreed title edition => Sys2Proof.Machine.execEditionFreed title edition s
  | .pageDeclare port edition page colour mask slot => Sys2Proof.Machine.execPageDeclare port edition page colour mask slot s
  | .imageBegin port msg => Sys2Proof.Machine.execImageBegin port msg s
  | .band port mark payload => Sys2Proof.Machine.execBand port mark payload s
  | .imageEnd port total crc => Sys2Proof.Machine.execImageEnd port total crc s
  | .targetLoad port msg => Sys2Proof.Machine.execTargetLoad port msg s
  | .pageQuery port tag title edition page => Sys2Proof.Machine.execPageQuery port tag title edition page s
  | .editionQuery port tag title edition => Sys2Proof.Machine.execEditionQuery port tag title edition s
  | .approve tag title edition page version => Sys2Proof.Machine.execApprove tag title edition page version s
  | .kill tag title edition page => Sys2Proof.Machine.execKill tag title edition page s
  | .hold tag title edition => Sys2Proof.Machine.execHold tag title edition s
  | .unhold tag title edition => Sys2Proof.Machine.execUnhold tag title edition s
  | .close tag title edition site => Sys2Proof.Machine.execClose tag title edition site s
  | .setClock tag mode value => Sys2Proof.Machine.execSetClock tag mode value s
  | .clockSecond => Sys2Proof.Machine.execClockSecond s
  | .cutoffExpiry => Sys2Proof.Machine.execCutoffExpiry s
  | .lineRetry tag site => Sys2Proof.Machine.execLineRetry tag site s
  | .pendingRetrain line => Sys2Proof.Machine.execPendingRetrain line s
  | .colourClear tag site slot => Sys2Proof.Machine.execColourClear tag site slot s
  | .siteQuery tag site => Sys2Proof.Machine.execSiteQuery tag site s
  | .colourQuery tag site slot => Sys2Proof.Machine.execColourQuery tag site slot s
  | .admission => Sys2Proof.Machine.execAdmission s
  | .targetWantServed => Sys2Proof.Machine.execTargetWantServed s
  | .handOver line => Sys2Proof.Machine.execHandOver line s
  | .frameLeftLine line => Sys2Proof.Machine.execFrameLeftLine line s
  | .bandReadDone line ecc => Sys2Proof.Machine.execBandReadDone line ecc s
  | .scrub ecc => Sys2Proof.Machine.execScrub ecc s
  | .openAck line tag resume => Sys2Proof.Machine.execOpenAck line tag resume s
  | .bandAck line tag count => Sys2Proof.Machine.execBandAck line tag count s
  | .plateDone line tag => Sys2Proof.Machine.execPlateDone line tag s
  | .plateRefused line tag reason => Sys2Proof.Machine.execPlateRefused line tag reason s
  | .abortAck line tag => Sys2Proof.Machine.execAbortAck line tag s
  | .targetHeld line slot generation => Sys2Proof.Machine.execTargetHeld line slot generation s
  | .withdrawAck line tag => Sys2Proof.Machine.execWithdrawAck line tag s
  | .pressRun line title edition => Sys2Proof.Machine.execPressRun line title edition s
  | .measure line slot count generation halves => Sys2Proof.Machine.execMeasure line slot count generation halves s
  | .siteRestart line => Sys2Proof.Machine.execSiteRestart line s
  | .tAckExpiry line => Sys2Proof.Machine.execTAckExpiry line s
  | .tConfExpiry line => Sys2Proof.Machine.execTConfExpiry line s
  | .badFrame frame => Sys2Proof.Machine.execBadFrame frame s
  | .framingLoss gap => Sys2Proof.Machine.execFramingLoss gap s
  | .trainWordPeriod line received => Sys2Proof.Machine.execTrainWordPeriod line received s
  | .attemptNoLock line => Sys2Proof.Machine.execAttemptNoLock line s
  | .attemptStuck line => Sys2Proof.Machine.execAttemptStuck line s
  | .measureWindowEnd line => Sys2Proof.Machine.execMeasureWindowEnd line s
  | .tRetryExpiry line => Sys2Proof.Machine.execTRetryExpiry line s
  | .frameNotInbound line frameType bodyWords => Sys2Proof.Machine.execFrameNotInbound line frameType bodyWords s

end Sys2Proof.Machine
end

