-- ==== Sys2Proof/Safety.lean ====
section
/-! DEFINITION. Properties of a state that the statements of Certificates/Slice0/Obligations.lean keep along every step, the reading of a
command as one of a line, and the groups of commands whose frames the statements give. -/

namespace Sys2Proof.Machine

/-! ### Invariants -/

/-- The DRAM is in its canonical form (the model's own; log 2). -/
def DramCanonical (s : State) : Prop := Memory.wf s.dram = true

/-- In RUN the configuration passes every check of START (R179, R180, R182). -/
def RunConfigured (s : State) : Prop := s.svc.phase = .run → configValid s.config = true

/-- A port's input in SETUP: IDLE, nothing in the buffer or the message store (R165, R181). -/
def TitlePort.quiet (x : TitlePort) : Prop := x.asm = .reset ∧ x.buffer = [] ∧ x.lane = 0

/-- A line in SETUP: DOWN with T_retry stopped, its transfer machine IDLE with nothing to send or to read (R149, R127, R181). -/
def Work.lineQuiet (w : Work) (i : Site) : Prop :=
  (w.qual i).level = .down ∧ (w.qual i).tRetry = none ∧ (w.qual i).retrainPending = false
    ∧ (w.engine i).state = .idle ∧ (w.engine i).current = none ∧ (w.engine i).tAck = none ∧ (w.engine i).tConf = none
    ∧ (w.engine i).reads = [] ∧ (w.engine i).tx = []

/-- Tables, queues, holdings and records in SETUP: all empty (R181). -/
def Work.tablesQuiet (w : Work) : Prop :=
  w.pages = [] ∧ w.backlog = [] ∧ w.images = [] ∧ w.extents = [] ∧ w.editions = [] ∧ w.deadlines = [] ∧ w.entries = []
    ∧ w.wants = [] ∧ w.clock.set = false ∧ w.titleHold = { a := false, b := false }
    ∧ w.slots = Vector.replicate 32 .reset ∧ w.holdings = Vector.replicate 8 (Vector.replicate 32 0)
    ∧ w.checks = Vector.replicate 8 (Vector.replicate 32 .reset)
    ∧ w.parsers = { a := .reset, b := .reset } ∧ w.freeExtents = w.extentCount
    ∧ w.out.a.queue = [] ∧ w.out.b.queue = [] ∧ w.out.desk.queue = []

/-- What R181 says of the phase SETUP. -/
def SetupQuiet (s : State) : Prop :=
  s.svc.phase = .setup →
    s.work.tablesQuiet ∧ (∀ i, s.work.lineQuiet i) ∧ (∀ t, (s.ports.get t).quiet) ∧ s.desk.asm = .reset

/-- No notice queue holds more than 64 records (R173, R174). -/
def NoticesBounded (w : Work) : Prop := ∀ p, (w.outOf p).queue.length ≤ noticeLimit

/-- Dispatch records: the numbers of the entries are different and lie in 0 to 1023 (R110). -/
def PoolSound (w : Work) : Prop := (w.entries.map Entry.number).Nodup ∧ ∀ e ∈ w.entries, e.number < dispatchLimit

/-- The extent pool: the numbers of the held extents are different and lie below the extent count, and with the free extents they make
the whole (R53, R55). -/
def StoreSound (w : Work) : Prop :=
  (w.extents.map Extent.number).Nodup ∧ (∀ e ∈ w.extents, e.number < w.extentCount) ∧ w.freeExtents + w.extents.length = w.extentCount

/-- A candidate's version is above the released version, 0 when there is none (R2). -/
def PageRec.candidateAbove (p : PageRec) : Prop := ∀ c, p.candidate = some c → p.releasedVersion < c.version

/-- A page key names at most one record in use, and while a record is in use its candidate's version is above its released version
(R1, R2). -/
def PagesSound (w : Work) : Prop := (w.pages.map PageRec.key).Nodup ∧ ∀ p ∈ w.pages, p.candidateAbove

/-- The deadline list stands in its order: cut-off ascending, equal ones as they were armed (R71). -/
def DeadlinesSorted (w : Work) : Prop := w.deadlines.Pairwise (fun x y => x.before y = true)

/-- The backlog: one item at most for a page, and no item without a site (R11, R16, R26, R102). -/
def BacklogSound (w : Work) : Prop := (w.backlog.map BacklogItem.key).Nodup ∧ ∀ i ∈ w.backlog, i.sites ≠ 0#8

/-- A site's held version of a page is at most the page's released version, 0 where there is none (R21). -/
def HeldWithinReleased (w : Work) : Prop := ∀ p ∈ w.pages, ∀ i, (p.site i).held ≤ p.releasedVersion

/-- The images a page record names, slot by slot. -/
def PageRec.imageIds (p : PageRec) : List Nat :=
  (match p.released with
    | some r => r.images.toList
    | none => [])
    ++ (match p.candidate with
        | some c => c.images.toList
        | none => [])

/-- The names of an image: the page slots that refer to it, and the PLATE entries that carry it (R59). -/
def Work.imageNames (w : Work) (id : Nat) : Nat :=
  (w.pages.map (fun p => p.imageIds.count id)).sum + (w.entries.filter (fun e => e.kind == .plate && e.image == some id)).length

/-- The Image Store's reference counts (R50, R51, R58, R59): an image's count is the number of its names, above 0 exactly while it is
SEALED or DAMAGED; what is named is in use; and the image open on a parser is neither, and open on that parser alone. -/
def ImagesSound (w : Work) : Prop :=
  (w.images.map ImageRec.id).Nodup
    ∧ (∀ r ∈ w.images, r.count = w.imageNames r.id ∧ (0 < r.count ↔ r.state = .sealed ∨ r.state = .damaged))
    ∧ (∀ id, 0 < w.imageNames id → (w.findImage id).isSome = true)
    ∧ (∀ t i, (w.parser t).image = some i → ∃ r, w.findImage i.image = some r ∧ (r.state = .filling ∨ r.state = .overrun))
    ∧ ∀ i j, (w.parser .a).image = some i → (w.parser .b).image = some j → i.image ≠ j.image

/-! ### States the statements speak of -/

/-- A line whose training has just begun (R151). -/
def Work.trainingBegun (w : Work) (i : Site) : Prop :=
  (w.qual i).level = .training ∧ (w.qual i).attempt = 1 ∧ (w.qual i).checker = .search ∧ (w.qual i).periods = 0
    ∧ (w.qual i).tRetry = none ∧ (w.qual i).retrainPending = false ∧ (w.qual i).windowFrames = 0 ∧ (w.qual i).windowBad = 0

/-- A transfer machine that carries nothing: IDLE, no current entry, both timers stopped (R127, R128). -/
def Work.transferIdle (w : Work) (i : Site) : Prop :=
  (w.engine i).state = .idle ∧ (w.engine i).current = none ∧ (w.engine i).tAck = none ∧ (w.engine i).tConf = none

/-- A line failure of a line has been taken: its machine carries nothing, the expiry count is 0, the failure is counted, and the line
trains (R147, R159). -/
def Work.lineFailed (before after : Work) (i : Site) : Prop :=
  after.transferIdle i ∧ (after.engine i).expiry = 0 ∧ (after.engine i).lineFailures = bump (before.engine i).lineFailures
    ∧ after.trainingBegun i

/-- No armed cut-off stands below a clock value, and every one that stood below it has made its edition-site LATE (R69, R70, R72). -/
def Work.expiredBelow (before after : Work) (clock : Nat) : Prop :=
  (∀ d ∈ after.deadlines, clock ≤ d.cutoff)
    ∧ ∀ d ∈ before.deadlines, d.cutoff < clock → ∀ x, before.editionSite d.title d.code d.site = some x →
      after.editionSite d.title d.code d.site = some { x with state := .late, lateMark := true }

/-! ### Commands of a line, and groups of commands -/

/-- The line a command acts on: the inbound frames, the timers and the steps of one line, and the line commands of the Service Port
and the desk where their site byte names one. -/
def lineOf : Instr → Option Site
  | .lineReset site | .capture site | .lineRetry _ site => siteOf site
  | .pendingRetrain i | .handOver i | .frameLeftLine i | .bandReadDone i _ => some i
  | .openAck i _ _ | .bandAck i _ _ | .plateDone i _ | .plateRefused i _ _ | .abortAck i _ | .targetHeld i _ _
  | .withdrawAck i _ | .pressRun i _ _ | .measure i _ _ _ _ | .siteRestart i => some i
  | .tAckExpiry i | .tConfExpiry i | .badFrame ⟨i, _⟩ | .framingLoss ⟨i, _⟩ | .trainWordPeriod i _ | .attemptNoLock i | .attemptStuck i
  | .measureWindowEnd i | .tRetryExpiry i | .frameNotInbound i _ _ => some i
  | .hardReset | .start | .softRestart | .unknownCommand _ | .configWrite _ _ | .errorReportRead | .attentionRead
  | .attentionEnableWrite _ => none
  | .titleWordIn _ _ | .assemblerByte _ | .resync _ | .resyncRelease _ | .outboundWordSent _ | .deskCharacterSent
  | .deskCharacter _ _ | .deskBreak => none
  | .editionDeclare _ _ _ | .editionRetire _ _ | .editionFreed _ _ | .pageDeclare _ _ _ _ _ _ | .imageBegin _ _ | .band _ _ _
  | .imageEnd _ _ _ | .targetLoad _ _ | .pageQuery _ _ _ _ _ | .editionQuery _ _ _ _ => none
  | .approve _ _ _ _ _ | .kill _ _ _ _ | .hold _ _ _ | .unhold _ _ _ | .close _ _ _ _ | .setClock _ _ _ | .clockSecond
  | .cutoffExpiry | .colourClear _ _ _ | .siteQuery _ _ | .colourQuery _ _ _ => none
  | .admission | .targetWantServed | .scrub _ => none

/-- The site whose records besides the transfer machine a command may change: its line's, and the one a COLOUR_CLEAR names. -/
def recordsOf : Instr → Option Site
  | .colourClear _ site _ => siteOf site
  | c => lineOf c

/-- The messages of the ports, with the port each comes by. -/
def messagePort : Instr → Option PortId
  | .editionDeclare t _ _ | .editionRetire t _ | .pageDeclare t _ _ _ _ _ | .imageBegin t _ | .band t _ _ | .imageEnd t _ _
  | .targetLoad t _ => some (.title t)
  | .pageQuery p _ _ _ _ | .editionQuery p _ _ _ => some p
  | .approve _ _ _ _ _ | .kill _ _ _ _ | .hold _ _ _ | .unhold _ _ _ | .close _ _ _ _ | .setClock _ _ _ | .lineRetry _ _
  | .colourClear _ _ _ | .siteQuery _ _ | .colourQuery _ _ _ => some .desk
  | _ => none

/-- The line an inbound frame, a bad frame or a loss of framing comes by (R129, R157, R158). -/
def inboundOf : Instr → Option Site
  | .openAck i _ _ | .bandAck i _ _ | .plateDone i _ | .plateRefused i _ _ | .abortAck i _ | .targetHeld i _ _ | .withdrawAck i _
  | .pressRun i _ _ | .measure i _ _ _ _ | .siteRestart i | .frameNotInbound i _ _ | .badFrame ⟨i, _⟩ | .framingLoss ⟨i, _⟩ => some i
  | _ => none

/-- The line and the tag of a tagged answer (R129). -/
def answerOf : Instr → Option (Site × Byte)
  | .openAck i tag _ | .bandAck i tag _ | .plateDone i tag | .plateRefused i tag _ | .abortAck i tag | .withdrawAck i tag => some (i, tag)
  | _ => none

end Sys2Proof.Machine

namespace Sys2Proof

/-- The commands that begin the part's work anew on every line. -/
def Instr.isRestart : Instr → Bool
  | .hardReset | .softRestart | .start => true
  | _ => false

/-- The commands that may stop transfers of other lines by aborting them, or, as a written W does, let them read on (R134, R144). -/
def Instr.reachesTransfers : Instr → Bool
  | .kill _ _ _ _ | .close _ _ _ _ | .targetLoad _ _ | .admission | .configWrite _ _ => true
  | _ => false

/-- The commands that may move the edition clock (R69, R70). -/
def Instr.movesClock : Instr → Bool
  | .setClock _ _ _ | .clockSecond => true
  | _ => false

/-- The commands that may change a title-wide hold (R76). -/
def Instr.changesHolds : Instr → Bool
  | .hold _ _ _ | .unhold _ _ _ => true
  | _ => false

/-- The commands a Submission Parser acts on (R30). -/
def Instr.reachesParsers : Instr → Bool
  | .imageBegin _ _ | .band _ _ _ | .imageEnd _ _ _ | .resync _ | .kill _ _ _ _ | .close _ _ _ _ => true
  | _ => false

/-- TARGET_LOAD alone loads a slot (R83, R85). -/
def Instr.loadsSlots : Instr → Bool
  | .targetLoad _ _ => true
  | _ => false

/-- The scrub alone moves its position (R63). -/
def Instr.scrubs : Instr → Bool
  | .scrub _ => true
  | _ => false

/-- The commands of the Service Port and the hard reset input. -/
def Instr.isService : Instr → Bool
  | .hardReset | .start | .softRestart | .lineReset _ | .capture _ | .unknownCommand _ | .configWrite _ _ | .errorReportRead
  | .attentionRead | .attentionEnableWrite _ => true
  | _ => false

/-- The events of the ports' own inbound sides. -/
def Instr.isPortEvent : Instr → Bool
  | .titleWordIn _ _ | .assemblerByte _ | .resync _ | .resyncRelease _ | .deskCharacter _ _ | .deskBreak => true
  | _ => false

end Sys2Proof
end

