-- ==== Sys2Proof/Certificates/Slice0/Obligations.lean ====
section
/-! DEFINITION. The statements for the provers. Log numbers are those of notes/assumptions; a statement that rests on one says so. -/

open Sys2Proof Sys2Proof.Machine

/-! ### The queue of commands -/

/-- A step takes the command at the front of the queue and runs it on the state with the queue's rest. With no command waiting the block
idles, which is the model's choice (log 3). -/
def Obligations.StepRunsFrontCommand : Prop :=
  (∀ (c : Instr) (rest : List Instr) (s : State), step { s with pending := c :: rest } = exec c { s with pending := rest })
    ∧ ∀ s : State, step { s with pending := [] } = .next { s with pending := [] }

/-! ### Invariants -/

/-- Every invariant below holds right after hard reset. -/
def Obligations.InvariantsHoldAtReset : Prop :=
  DramCanonical State.reset ∧ RunConfigured State.reset ∧ SetupQuiet State.reset ∧ NoticesBounded State.reset.work
    ∧ PoolSound State.reset.work ∧ StoreSound State.reset.work ∧ DeadlinesSorted State.reset.work ∧ BacklogSound State.reset.work
    ∧ PagesSound State.reset.work ∧ HeldWithinReleased State.reset.work ∧ ImagesSound State.reset.work

/-- Every step keeps the DRAM in its canonical form (the model's own form, log 2). -/
def Obligations.DramStaysCanonical : Prop :=
  ∀ s t : State, DramCanonical s → step s = .next t → DramCanonical t

/-- In RUN the configuration passes every check of START (R180, R182); in SETUP every table, queue, holding and record is empty, every line
is DOWN, every port IDLE (R181). Every step keeps each of the two so. That no line frame is left to send is the model's choice (log 58). -/
def Obligations.PhaseRulesAreKept : Prop :=
  ∀ s t : State, step s = .next t → (RunConfigured s → RunConfigured t) ∧ (SetupQuiet s → SetupQuiet t)

/-- Every step keeps each notice queue within 64 records, the record numbers of the dispatch entries different and within 0 to 1023, and the
held and free extents, no extent held twice, making up the extent count (R173, R110, R112, R53, R55, R57); the deadline list in its order,
cut-off ascending and equal ones as they were armed (R71; the counter of armings is the model's, log 11); and one backlog item at most for a
page, its site set not empty (R11, R16, R26, R102). Before START the extent pool is empty, which SetupQuiet says. -/
def Obligations.QueuesAndPoolsStayBounded : Prop :=
  ∀ s t : State, SetupQuiet s → step s = .next t →
    (NoticesBounded s.work → NoticesBounded t.work) ∧ (PoolSound s.work → PoolSound t.work) ∧ (StoreSound s.work → StoreSound t.work)
      ∧ (DeadlinesSorted s.work → DeadlinesSorted t.work) ∧ (BacklogSound s.work → BacklogSound t.work)

/-- Every step keeps one record in use at most for a page key, and every candidate's version above its page's released version (R1, R2, R6);
with that, a site's held version of a page stays at most the page's released version (R21), and while a record stays in use its released
version never decreases (R15). -/
def Obligations.PageRecordsStaySound : Prop :=
  ∀ s t : State, PagesSound s.work → step s = .next t →
    PagesSound t.work ∧ (HeldWithinReleased s.work → HeldWithinReleased t.work)
      ∧ ∀ key q x, s.work.findPage key = some q → t.work.findPage key = some x → q.releasedVersion ≤ x.releasedVersion

/-- Every step keeps the Image Store's reference counts: the count of an image in use is the number of page slots and PLATE entries that
name it, it is above 0 exactly while the image is SEALED or DAMAGED, an image that anything names is in use, and the image open on a parser
is FILLING or in OVERRUN and open on that parser alone (R50, R51, R58, R59). The page and dispatch records are sound, which are invariants
of their own. -/
def Obligations.ImageCountsStaySound : Prop :=
  ∀ s t : State, PagesSound s.work → PoolSound s.work → ImagesSound s.work → step s = .next t → ImagesSound t.work

/-! ### Frames -/

/-- A command leaves the records of every line and site it does not act on: outside the resets and START, a line's transfer machine changes
only by a command of that line or by the aborts and band decisions of KILL, CLOSE, TARGET_LOAD, ADMISSION and CONFIG_WRITE, and a site's
qualifier, service counters, title arbiter, holdings and colour check records only by a command of that line or site. -/
def Obligations.CommandsLeaveOtherLines : Prop :=
  ∀ (c : Instr) (s t : State) (j : Site), c.isRestart = false → exec c s = .next t →
    (lineOf c ≠ some j → c.reachesTransfers = false → t.work.engine j = s.work.engine j)
      ∧ (recordsOf c ≠ some j →
          t.work.qual j = s.work.qual j ∧ tget t.work.siteCounters j = tget s.work.siteCounters j
            ∧ tget t.work.arbiters j = tget s.work.arbiters j ∧ tget t.work.holdings j = tget s.work.holdings j
            ∧ tget t.work.checks j = tget s.work.checks j)

/-- Shared records that one kind of command alone changes, the resets and START apart: target slots by TARGET_LOAD, the edition clock by
SET_CLOCK and CLOCK_SECOND, title-wide holds by HOLD and UNHOLD, the parsers by the submission messages, RESYNC, KILL and CLOSE, the scrub
position by SCRUB, and the extent count and the quotas by none. -/
def Obligations.CommandsLeaveSharedRecords : Prop :=
  ∀ (c : Instr) (s t : State), c.isRestart = false → exec c s = .next t →
    (c.loadsSlots = false → t.work.slots = s.work.slots) ∧ (c.movesClock = false → t.work.clock = s.work.clock)
      ∧ (c.changesHolds = false → t.work.titleHold = s.work.titleHold)
      ∧ (c.reachesParsers = false → t.work.parsers = s.work.parsers) ∧ (c.scrubs = false → t.work.scrubPos = s.work.scrubPos)
      ∧ t.work.extentCount = s.work.extentCount ∧ t.work.quota = s.work.quota

/-- The Service Port's registers and the configuration change by Service Port commands only, the ports' inbound sides by those, by port
events and by the messages they hand over, the DRAM by BAND only; and no command changes the queue of commands. That the two resets too keep
the DRAM and the waiting commands is the model's choice (log 2, log 29). -/
def Obligations.CommandsLeaveServiceAndPorts : Prop :=
  ∀ (c : Instr) (s t : State), exec c s = .next t →
    (c.isService = false → t.svc = s.svc ∧ t.config = s.config)
      ∧ (c.isService = false → c.isPortEvent = false → messagePort c = none → t.ports = s.ports ∧ t.desk = s.desk)
      ∧ ((∀ p mark payload, c ≠ .band p mark payload) → ∀ a, readByte t.dram a = readByte s.dram a)
      ∧ t.pending = s.pending

/-- What a BAND writes to the DRAM: its length word and payload at the address the Image Store places them at, and nothing else; nothing at
all when the Image Store stores no band (R39, R54, R56; the byte order of the length word is the model's, log 23). -/
def Obligations.BandWritesItsBlockOnly : Prop :=
  ∀ (p : Title) (mark : Byte) (payload : List Byte) (s : State), ∃ t, exec (.band p mark payload) s = .next t
    ∧ (s.takesMessage (.title p) (.band p mark payload) = true → ∀ base, (s.work.takeBand p mark payload).2 = some base →
        (∀ a, a < base ∨ base + (payload.length + 4) ≤ a → readByte t.dram a = readByte s.dram a)
          ∧ (∀ k, k < payload.length → readByte t.dram (base + 4 + k) = payload.getD k 0#8)
          ∧ (payload.length < 4294967296 → readLength t.dram base = payload.length))
    ∧ (s.takesMessage (.title p) (.band p mark payload) = false ∨ (s.work.takeBand p mark payload).2 = none → t.dram = s.dram)

/-- A message changes nothing in SETUP, while its port is STALLED or a title port is held by RESYNC, or while the store holds another
message (R166, R170, R181; that a message acts only as its port can carry it is the model's reading, log 7). -/
def Obligations.MessagesNeedAnOpenPort : Prop :=
  ∀ (c : Instr) (p : PortId) (s : State), messagePort c = some p →
    (s.svc.phase = .setup ∨ (s.asmOf p).state = .stalled ∨ (∃ u, p = .title u ∧ (s.ports.get u).resyncIn = true)
      ∨ ((s.asmOf p).complete = true ∧ storedCommand p (s.asmOf p).store ≠ some c)) →
    exec c s = .next s

/-! ### Service Port -/

/-- HARD_RESET leaves every register, table and port at its reset value and the phase SETUP. SOFT_RESTART clears the working state and keeps
the configuration and the attention enables. That the DRAM, the levels of the RESYNC inputs, the waiting commands and, at a soft restart,
the sizes and rates START put in effect stay is the model's choice (log 2, log 22, log 27, log 29), as are the latch of the word read last
and those of the words being sent, cleared or kept with them (log 1), and the end of a line frame in transmission (log 58). -/
def Obligations.ResetsClearThePart : Prop :=
  ∀ s : State,
    exec .hardReset s = .next
      { svc := { phase := .setup, status := .none, refusedItem := 0, enables := .clear, readData := 0 }
        config := defaultConfig
        ports := { a := { asm := .reset, buffer := [], lane := 0, byteOrder := .high, resyncIn := s.ports.a.resyncIn }
                   b := { asm := .reset, buffer := [], lane := 0, byteOrder := .high, resyncIn := s.ports.b.resyncIn } }
        desk := { asm := .reset, baud := 115200 }
        dram := s.dram
        work := Work.resetWith 4096 { a := 1024, b := 1024 } (Vector.replicate 8 (Qualifier.resetAt 2048))
        pending := s.pending }
    ∧ exec .softRestart s = .next
      { svc := { s.svc with phase := .setup, status := .accepted, refusedItem := 0 }
        config := s.config
        ports := { a := { asm := .reset, buffer := [], lane := 0, byteOrder := s.ports.a.byteOrder, resyncIn := s.ports.a.resyncIn }
                   b := { asm := .reset, buffer := [], lane := 0, byteOrder := s.ports.b.byteOrder, resyncIn := s.ports.b.resyncIn } }
        desk := { asm := .reset, baud := s.desk.baud }
        dram := s.dram
        work := Work.resetWith s.work.extentCount s.work.quota (s.work.quals.map (fun q => Qualifier.resetAt q.lineRate))
        pending := s.pending }

/-- START in SETUP with every item in range, T_up at most T_deg and the quotas within the extents: the phase becomes RUN, the configured
sizes, orders and rates take effect, every line begins training with cause START, and the desk hears of the eight lines, from S0 to S7 (the
order is the model's choice, log 55). START that finds a failure: REFUSED with the lowest address charged, CONFIG_REFUSED and the ERROR
attention flag set, nothing else changed. START in RUN: WRONG_PHASE and nothing else. -/
def Obligations.StartEntersRun : Prop :=
  ∀ s : State,
    (s.svc.phase = .setup → (∀ i : ConfigItem, i.inRange (cfg s.config i) = true) →
      cfg s.config .tUp ≤ cfg s.config .tDeg → cfg s.config .quotaA + cfg s.config .quotaB ≤ 4096 * cfg s.config .dramSize →
      ∃ t, exec .start s = .next t
        ∧ t.svc = { s.svc with phase := .run, status := .accepted, refusedItem := 0 } ∧ t.config = s.config ∧ t.dram = s.dram
        ∧ t.work.extentCount = 4096 * cfg s.config .dramSize ∧ t.work.freeExtents = 4096 * cfg s.config .dramSize
        ∧ t.work.scrubPos = 0 ∧ t.work.quota = { a := cfg s.config .quotaA, b := cfg s.config .quotaB }
        ∧ t.ports.a = { s.ports.a with byteOrder := if cfg s.config .byteOrderA = 0 then .high else .low }
        ∧ t.ports.b = { s.ports.b with byteOrder := if cfg s.config .byteOrderB = 0 then .high else .low }
        ∧ t.desk = { s.desk with baud := cfg s.config .baud }
        ∧ (∀ i, t.work.trainingBegun i ∧ (t.work.qual i).lineRate = cfg s.config (.lineRate i))
        ∧ t.work.outOf .desk = (s.work.each (fun i => Work.toDesk (.lineTraining i .start)) allSites).outOf .desk
        ∧ t.work.pages = s.work.pages ∧ t.work.entries = s.work.entries)
    ∧ (s.svc.phase = .setup → ∀ a, a ∈ startFailures s.config → (∀ b ∈ startFailures s.config, a ≤ b) →
        exec .start s = .next { s with
          svc := { s.svc with status := .refused, refusedItem := a }
          work := { s.work with
            errors := { s.work.errors with configRefused := true }
            attention := { s.work.attention with error := true } } })
    ∧ (s.svc.phase = .run → exec .start s = .next { s with svc := { s.svc with status := .wrongPhase } })

/-- LINE_RESET of a line: in RUN the transfer ends, the counters of R162 start again from 0 and the line trains from attempt 1 (which the
attempts counter counts); in SETUP the line's counters become 0 and it stays as it is. CAPTURE copies the line's seven counters, its level,
attempt and last verdict to the snapshot and changes nothing else. A site above 7 is BAD_SITE, any other command code UNKNOWN. A word
written to 0x011 is one of these commands by its code in bits 31 to 24, the site in bits 7 to 0; it waits behind the commands that came
before it (log 34). -/
def Obligations.LineCommandsOfTheWindow : Prop :=
  ∀ (b : Byte) (s : State),
    (∀ i, siteOf b = some i → ∃ t, exec (.lineReset b) s = .next t ∧ t.svc = { s.svc with status := .accepted }
      ∧ (t.work.engine i).lineFailures = 0 ∧ (t.work.engine i).strayFrames = 0 ∧ tget t.work.arbiters i = none
      ∧ (t.work.qual i).verdict = (s.work.qual i).verdict ∧ (t.work.qual i).snapshot = (s.work.qual i).snapshot
      ∧ (s.svc.phase = .run → t.work.transferIdle i ∧ t.work.trainingBegun i ∧ (t.work.engine i).expiry = 0
          ∧ (t.work.qual i).counters = { words := 0, errors := 0, lockLosses := 0, attempts := 1, badFrames := 0 })
      ∧ (s.svc.phase = .setup → (t.work.qual i).level = (s.work.qual i).level
          ∧ (t.work.qual i).counters = { words := 0, errors := 0, lockLosses := 0, attempts := 0, badFrames := 0 }))
    ∧ (∀ i, siteOf b = some i → exec (.capture b) s = .next { s with
        svc := { s.svc with status := .accepted }
        work := { s.work with quals := tput s.work.quals i { s.work.qual i with
          snapshot :=
            { counters := (s.work.qual i).counters, lineFailures := (s.work.engine i).lineFailures,
              strayFrames := (s.work.engine i).strayFrames, level := (s.work.qual i).level, attempt := (s.work.qual i).attempt,
              verdict := (s.work.qual i).verdict } } } })
    ∧ (8 ≤ b.toNat → exec (.lineReset b) s = .next { s with svc := { s.svc with status := .badSite } }
        ∧ exec (.capture b) s = .next { s with svc := { s.svc with status := .badSite } })
    ∧ exec (.unknownCommand b) s = .next { s with svc := { s.svc with status := .unknown } }
    ∧ ∀ v : Word,
      (v.extractLsb' 24 8 = 1#8 → windowWrite 0x011#12 v = .start)
      ∧ (v.extractLsb' 24 8 = 2#8 → windowWrite 0x011#12 v = .softRestart)
      ∧ (v.extractLsb' 24 8 = 3#8 → windowWrite 0x011#12 v = .lineReset (v.extractLsb' 0 8))
      ∧ (v.extractLsb' 24 8 = 4#8 → windowWrite 0x011#12 v = .capture (v.extractLsb' 0 8))
      ∧ (v.extractLsb' 24 8 = b → b = 0#8 ∨ 4 < b.toNat → windowWrite 0x011#12 v = .unknownCommand b)
      ∧ ∀ addr, s.windowWritten addr v = { s with pending := s.pending ++ [windowWrite addr v] }

/-- A write of a configuration item: in SETUP taken whole, in RUN taken where the item is writable, in range and keeps T_up at most T_deg,
and otherwise ignored; the written item reads back and no other changes; an address without an item is ignored. A write of any address but
the command word's and the attention enables' is such a write. That a write to an address with read access only is ignored is the model's
choice (log 59). -/
def Obligations.ConfigurationWrites : Prop :=
  (∀ (i : ConfigItem) (addr : BitVec 12) (v : Word) (s : State), addr.toNat = i.addr →
    (s.svc.phase = .setup → exec (.configWrite addr v) s = .next { s with config := setCfg s.config i v })
    ∧ (s.svc.phase = .run → i.writable = true → i.inRange v.toNat = true → (i = .tUp → v.toNat ≤ cfg s.config .tDeg) →
        (i = .tDeg → cfg s.config .tUp ≤ v.toNat) →
        ∃ t, exec (.configWrite addr v) s = .next t ∧ t.config = setCfg s.config i v ∧ t.svc = s.svc ∧ t.ports = s.ports
          ∧ t.desk = s.desk ∧ (i ≠ .window → t.work = s.work))
    ∧ (s.svc.phase = .run →
        (i.writable = false ∨ i.inRange v.toNat = false ∨ (i = .tUp ∧ cfg s.config .tDeg < v.toNat)
          ∨ (i = .tDeg ∧ v.toNat < cfg s.config .tUp)) →
        exec (.configWrite addr v) s = .next s)
    ∧ cfg (setCfg s.config i v) i = v.toNat ∧ ∀ j, j ≠ i → cfg (setCfg s.config i v) j = cfg s.config j)
  ∧ (∀ (addr : BitVec 12) (v : Word) (s : State), (∀ i : ConfigItem, i.addr ≠ addr.toNat) → exec (.configWrite addr v) s = .next s)
  ∧ ∀ (addr : BitVec 12) (v : Word), addr ≠ 0x011#12 → addr ≠ 0x022#12 → windowWrite addr v = .configWrite addr v

/-- Reading the error report or the attention flags returns them, each flag at its bit, and clears them; a write of the enables takes bits 0
to 2 and changes nothing else. They are the reads of 0x020 and 0x021 and the write of 0x022; the two reads return the word of the window at
their address. The latch that holds the word returned is the model's (log 1). -/
def Obligations.FlagRegisters : Prop :=
  ∀ s : State,
    (∃ w : Word, exec .errorReportRead s = .next
        { s with svc := { s.svc with readData := w }, work := { s.work with errors := .clear } }
      ∧ w.getLsbD 0 = s.work.errors.stalledA ∧ w.getLsbD 1 = s.work.errors.stalledB ∧ w.getLsbD 2 = s.work.errors.stalledDesk
      ∧ w.getLsbD 3 = s.work.errors.configRefused ∧ w.getLsbD 4 = s.work.errors.dramUncorrectable ∧ w.getLsbD 5 = s.work.errors.lostA
      ∧ w.getLsbD 6 = s.work.errors.lostB ∧ w.getLsbD 7 = s.work.errors.lostDesk)
    ∧ (∃ w : Word, exec .attentionRead s = .next
        { s with svc := { s.svc with readData := w }, work := { s.work with attention := .clear } }
      ∧ w.getLsbD 0 = s.work.attention.error ∧ w.getLsbD 1 = s.work.attention.lineDown ∧ w.getLsbD 2 = s.work.attention.colourHold)
    ∧ ∀ v : Word, exec (.attentionEnableWrite v) s = .next
        { s with svc := { s.svc with
          enables := { error := v.getLsbD 0, lineDown := v.getLsbD 1, colourHold := v.getLsbD 2 } } }
      ∧ windowWrite 0x022#12 v = .attentionEnableWrite v
      ∧ windowReadCommand 0x020#12 = some .errorReportRead ∧ windowReadCommand 0x021#12 = some .attentionRead
      ∧ (∀ t, exec .errorReportRead s = .next t → t.svc.readData = windowRead 0x020#12 s)
      ∧ ∀ t, exec .attentionRead s = .next t → t.svc.readData = windowRead 0x021#12 s

/-! ### Ports -/

/-- A word strobed while the ready line is asserted goes to the tail of the inbound buffer; any other strobe is ignored. Ready is asserted
in RUN while RESYNC is released and the 8 KiB buffer has room for a word. The assembler takes the byte of its lane from the head word, the
word leaving with its fourth byte, and what the port tells of it is a PORT_ERROR notice and the PORT_STALLED flag when it stalls; nothing is
taken from an empty buffer or while a complete message waits. -/
def Obligations.TitleWordsReachTheAssembler : Prop :=
  ∀ (p : Title) (s : State),
    (∀ word, s.svc.phase = .run → (s.ports.get p).resyncIn = false → (s.ports.get p).buffer.length < 2048 →
      exec (.titleWordIn p word) s = .next
        { s with ports := s.ports.put p { s.ports.get p with buffer := (s.ports.get p).buffer ++ [word] } })
    ∧ (∀ word, s.svc.phase = .setup ∨ (s.ports.get p).resyncIn = true ∨ 2048 ≤ (s.ports.get p).buffer.length →
        exec (.titleWordIn p word) s = .next s)
    ∧ ((s.ports.get p).buffer = [] ∨ (s.ports.get p).asm.complete = true → exec (.assemblerByte p) s = .next s)
    ∧ ∀ (w : Word) (rest : List Word), (s.ports.get p).buffer = w :: rest → (s.ports.get p).asm.complete = false →
        (s.ports.get p).lane ≤ 3 →
        ∃ t b, exec (.assemblerByte p) s = .next t
          ∧ b = (match (s.ports.get p).byteOrder with
              | .high => w.extractLsb' (24 - 8 * (s.ports.get p).lane) 8
              | .low => w.extractLsb' (8 * (s.ports.get p).lane) 8)
          ∧ t.ports = s.ports.put p
              { s.ports.get p with
                asm := ((s.ports.get p).asm.take (.title p) b).1
                buffer := if (s.ports.get p).lane = 3 then rest else w :: rest
                lane := if (s.ports.get p).lane = 3 then 0 else (s.ports.get p).lane + 1 }
          ∧ t.work = (match ((s.ports.get p).asm.take (.title p) b).2 with
              | some cause => (s.work.notify (.title p) (.portError cause)).raiseError (ErrorReport.setStalled (.title p))
              | none => s.work)
          ∧ t.desk = s.desk ∧ t.svc = s.svc ∧ t.dram = s.dram

/-- The transitions of the byte assembler: hunting in IDLE, filler and syncs between messages, stray bytes, the header check of type and
length, the storing of header and body bytes, the CRC-16 check at the end, and dropping in STALLED. A message whose CRC-16 agrees is
complete in the store; one whose CRC-16 does not stalls the port with cause BAD_CRC; a port that stalls has an empty message store. -/
def Obligations.AssemblerTransitions : Prop :=
  ∀ (p : PortId) (b : Byte) (a : Assembler), a.complete = false →
    (a.state = .stalled → a.take p b = (a, none))
    ∧ (a.state = .idle → a.c3Held = true → b = 0x3C#8 → a.take p b = (.begun, none))
    ∧ (a.state = .idle → (a.c3Held = false ∨ b ≠ 0x3C#8) → a.take p b = ({ a with c3Held := b == 0xC3#8 }, none))
    ∧ (a.state = .synced → a.store = [] → a.c3Held = true → b = 0x3C#8 → a.take p b = (.begun, none))
    ∧ (a.state = .synced → a.store = [] → a.c3Held = true → b ≠ 0x3C#8 → a.take p b = (.stalled, some .strayByte))
    ∧ (a.state = .synced → a.store = [] → a.c3Held = false → b = 0#8 → a.take p b = (a, none))
    ∧ (a.state = .synced → a.store = [] → a.c3Held = false → b = 0xC3#8 → a.take p b = ({ a with c3Held := true }, none))
    ∧ (a.state = .synced → a.store = [] → a.c3Held = false → b ≠ 0#8 → b ≠ 0xC3#8 → a.take p b = (.stalled, some .strayByte))
    ∧ (a.state = .synced → a.store.length = 6 → acceptsType p (byteAt a.store 2).toNat = false →
        a.take p b = (.stalled, some .unknownType))
    ∧ (a.state = .synced → a.store.length = 6 → acceptsType p (byteAt a.store 2).toNat = true →
        lengthListed (byteAt a.store 2).toNat (headerLength (a.store ++ [b])) = false →
        a.take p b = (.stalled, some .badLength))
    ∧ (a.state = .synced → a.store ≠ [] → a.store.length < 6 → a.take p b = ({ a with store := a.store ++ [b] }, none))
    ∧ (a.state = .synced → a.store.length = 6 → acceptsType p (byteAt a.store 2).toNat = true →
        lengthListed (byteAt a.store 2).toNat (headerLength (a.store ++ [b])) = true →
        a.take p b = ({ a with store := a.store ++ [b] }, none))
    ∧ ∀ l n, l = a.store ++ [b] → n = headerLength l → a.state = .synced → 7 ≤ a.store.length →
      (l.length ≠ 9 + n → a.take p b = ({ a with store := l }, none))
      ∧ (l.length = 9 + n → crc16 ((l.drop 2).take (5 + n)) = byteAt l (7 + n) ++ byteAt l (8 + n) →
          a.take p b = ({ a with store := l, complete := true }, none))
      ∧ (l.length = 9 + n → crc16 ((l.drop 2).take (5 + n)) ≠ byteAt l (7 + n) ++ byteAt l (8 + n) →
          a.take p b = ({ state := .stalled, c3Held := false, store := [], complete := false }, some .badCrc))

/-- A message in its envelope, taken byte by byte from IDLE or from between messages, of a type the port accepts and a length listed for it,
ends complete in the store without stalling the port, and is read back as the command of its type, tag and body. -/
def Obligations.EnvelopeRoundTrip : Prop :=
  ∀ (p : PortId) (type tag : Byte) (body : List Byte) (a : Assembler),
    acceptsType p type.toNat = true → lengthListed type.toNat body.length = true →
    (a.state = .idle ∨ a.state = .synced) → a.store = [] → a.c3Held = false →
    (envelope type tag body).foldl (fun x b => (Assembler.take p b x).1) a
        = { state := .synced, c3Held := false, store := envelope type tag body, complete := true }
      ∧ storedCommand p (envelope type tag body)
        = (match p with
          | .title t => titleCommand t type.toNat tag body
          | .desk => deskCommand type.toNat tag body)

/-- The receiver of a line in service. From a sync word on, a header word, the body words it counts and a CRC word are one frame: it becomes
the command of its type, tag and body when the CRC word is the CRC-16 of header and body with 0 above it, and BAD_FRAME otherwise; a header
length above 61,442 makes a BAD_FRAME of the header word alone. A type or length outside the line table is FRAME_NOT_INBOUND. Outside a
frame, 32 positions in a row that hold neither idle word nor sync word are a FRAMING_LOSS. A command made waits behind those that came
before; in training the word is that of a TRAIN_WORD_PERIOD, in DOWN it is ignored. The commands' words are judged again when they act. That
a position without a word leaves a frame as it is, and that the reason of a PLATE_REFUSED is its whole body word, is the model's choice (log
49, log 60). -/
def Obligations.LineWordsBecomeCommands : Prop :=
  ∀ (i : Site) (r : Receiver),
    let heard (ps : List (Option Word)) (x : Receiver) (cs : List Instr) : Prop := r.takeAll i ps = (x, cs)
    (r.inFrame = false →
      (∀ (type tag : Byte) (body : List Word) (h z crc : Word), h = type ++ tag ++ BitVec.ofNat 16 body.length → body.length ≤ 61442 →
          crc = ((h :: body).foldl crc16Word 0xFFFF#16).setWidth 32 →
          (z = crc → heard ((0xB4E1D22D#32 :: h :: (body ++ [z])).map some) .reset [soundFrame i type tag body])
          ∧ (z ≠ crc → heard ((0xB4E1D22D#32 :: h :: (body ++ [z])).map some) .reset [.badFrame { line := i, words := h :: (body ++ [z]) }]
              ∧ frameBad (h :: (body ++ [z])) = true))
      ∧ (∀ h : Word, 61442 < (h.extractLsb' 0 16).toNat → heard [some 0xB4E1D22D#32, some h] .reset [.badFrame { line := i, words := [h] }]
          ∧ frameBad [h] = true)
      ∧ (∀ ps : List (Option Word), r.lost = [] → (∀ p ∈ ps, p ≠ some 0x0F0F0F0F#32 ∧ p ≠ some 0xB4E1D22D#32) →
          (ps.length < 32 → heard ps { r with lost := ps } [])
          ∧ (ps.length = 32 → heard ps { r with lost := [] } [.framingLoss { line := i, positions := ps }] ∧ framingLost ps = true))
      ∧ heard [some 0x0F0F0F0F#32] { r with lost := [] } [])
    ∧ (r.inFrame = true → heard [none] r [])
    ∧ (∀ (tag : Byte) (w : Word) (ws : List Word),
        soundFrame i 0x81#8 tag [w] = .openAck i tag (w.extractLsb' 0 16)
        ∧ soundFrame i 0x82#8 tag [w] = .bandAck i tag (w.extractLsb' 0 16) ∧ soundFrame i 0x83#8 tag [] = .plateDone i tag
        ∧ soundFrame i 0x84#8 tag [w] = .plateRefused i tag w ∧ soundFrame i 0x85#8 tag [] = .abortAck i tag
        ∧ soundFrame i 0x86#8 tag [w] = .targetHeld i (w.extractLsb' 24 8) (w.extractLsb' 0 16)
        ∧ soundFrame i 0x87#8 tag [] = .withdrawAck i tag
        ∧ soundFrame i 0x88#8 tag [w] = .pressRun i (w.extractLsb' 24 8) (w.extractLsb' 16 8)
        ∧ soundFrame i 0x89#8 tag (w :: ws) = .measure i (w.extractLsb' 24 8) (w.extractLsb' 16 8) (w.extractLsb' 0 16)
            (ws.flatMap (fun x => [x.extractLsb' 16 16, x.extractLsb' 0 16]))
        ∧ soundFrame i 0x8A#8 tag [] = .siteRestart i)
    ∧ (∀ (type tag : Byte) (body : List Word), inboundLengthOk type body.length = false →
        soundFrame i type tag body = .frameNotInbound i type (BitVec.ofNat 16 body.length))
    ∧ ∀ (p : Option Word) (s : State), (s.work.qual i).receiver = r →
      ((s.work.qual i).inService = true → s.lineWord i p = { s with
        work := { s.work with quals := tput s.work.quals i { s.work.qual i with receiver := (r.take i p).1 } }
        pending := s.pending ++ (r.take i p).2.toList })
      ∧ ((s.work.qual i).level = .training → s.lineWord i p = { s with pending := s.pending ++ [.trainWordPeriod i p] })
      ∧ ((s.work.qual i).level = .down → s.lineWord i p = s)

/-- RESYNC in RUN empties the buffer, returns the port to IDLE, ends the image in progress on the parser with its SUBMIT_RESULT, and then
appends PORT_RESYNCED; in SETUP only the input's level changes. RESYNC_RELEASE changes that level and nothing else. -/
def Obligations.ResyncClearsThePort : Prop :=
  ∀ (p : Title) (s : State),
    (s.svc.phase = .run → ∃ t, exec (.resync p) s = .next t
      ∧ t.ports = s.ports.put p { s.ports.get p with asm := .reset, buffer := [], lane := 0, resyncIn := true } ∧ t.desk = s.desk
      ∧ ((s.work.parser p).state = .idle → t.work = s.work.toTitle p .portResynced)
      ∧ (∀ i, (s.work.parser p).state = .opened → (s.work.parser p).image = some i →
          t.work.parser p = .reset ∧ t.work.findImage i.image = none
            ∧ t.work.outOf (.title p) = ((s.work.toTitle p (.submitResult (some i.key) i.sep.index i.version .resync
                (s.work.parser p).bandCounter (s.work.parser p).byteCount)).toTitle p .portResynced).outOf (.title p))
      ∧ (∀ r, (s.work.parser p).state = .discard → (s.work.parser p).result = some r →
          t.work.parser p = .reset
            ∧ t.work.outOf (.title p) = ((s.work.toTitle p (.submitResult (some r.key) r.sepCode r.version r.result r.bands
                r.bytes)).toTitle p .portResynced).outOf (.title p)))
    ∧ (s.svc.phase = .setup → exec (.resync p) s = .next { s with ports := s.ports.put p { s.ports.get p with resyncIn := true } })
    ∧ exec (.resyncRelease p) s = .next { s with ports := s.ports.put p { s.ports.get p with resyncIn := false } }

/-- Characters and breaks on the Desk Port: in SETUP all are dropped; in RUN a character is a byte for the assembler, one with its stop bit
low stalls a SYNCED port with cause FRAMING and is dropped otherwise, and a break returns the port to IDLE and appends PORT_RESYNCED. That a
character is dropped while a complete message waits is the model's choice (log 25). -/
def Obligations.DeskCharactersAndBreaks : Prop :=
  ∀ (ch : Byte) (stopLow : Bool) (s : State),
    (s.svc.phase = .setup → exec (.deskCharacter ch stopLow) s = .next s ∧ exec .deskBreak s = .next s)
    ∧ (s.svc.phase = .run → s.desk.asm.complete = true → exec (.deskCharacter ch stopLow) s = .next s)
    ∧ (s.svc.phase = .run → s.desk.asm.complete = false → stopLow = true → s.desk.asm.state = .synced →
        exec (.deskCharacter ch stopLow) s = .next
          { s with
            desk := { s.desk with asm := .stalled }
            work := (s.work.notify .desk (.portError .framing)).raiseError (fun e => { e with stalledDesk := true }) })
    ∧ (s.svc.phase = .run → s.desk.asm.complete = false → stopLow = true → s.desk.asm.state ≠ .synced →
        exec (.deskCharacter ch stopLow) s = .next s)
    ∧ (s.svc.phase = .run → s.desk.asm.complete = false → stopLow = false →
        exec (.deskCharacter ch stopLow) s = .next
          { s with
            desk := { s.desk with asm := (s.desk.asm.take .desk ch).1 }
            work := match (s.desk.asm.take .desk ch).2 with
              | some cause => (s.work.notify .desk (.portError cause)).raiseError (fun e => { e with stalledDesk := true })
              | none => s.work })
    ∧ (s.svc.phase = .run → exec .deskBreak s = .next
        { s with desk := { s.desk with asm := .reset }, work := s.work.toDesk .portResynced })

/-- Sending: a title port's word carries the next four bytes of its notice records in lane order, 0x00 where the queue has ended, and the
desk's character the next byte; what was sent leaves the stream, and nothing else of the machine changes. The latch of what was sent and the
packing in step with the sending are the model's (log 1, log 18). A notice appended to a queue of 64 is dropped: the queue stays, the port's
lost flag and its NOTICE_LOST flag are set, and with them the ERROR attention flag; the next record appended carries the LOST mark and
clears the lost flag. -/
def Obligations.NoticesAreQueuedAndSent : Prop :=
  (∀ (p : Title) (s : State) (o : Outbox), o = s.work.outOf (.title p) →
    ∃ x : Outbox, exec (.outboundWordSent p) s = .next (s.setWork (s.work.setOut (.title p) x))
      ∧ x.lost = o.lost ∧ streamBytes x.queue x.sent = (streamBytes o.queue o.sent).drop 4
      ∧ (o.queue ≠ [] → ∀ l, l = streamBytes o.queue o.sent →
          x.lastOut = (match (s.ports.get p).byteOrder with
            | .high => l.getD 0 0#8 ++ l.getD 1 0#8 ++ l.getD 2 0#8 ++ l.getD 3 0#8
            | .low => l.getD 3 0#8 ++ l.getD 2 0#8 ++ l.getD 1 0#8 ++ l.getD 0 0#8)))
  ∧ (∀ (s : State) (o : Outbox), o = s.work.outOf .desk →
    ∃ x : Outbox, exec .deskCharacterSent s = .next (s.setWork (s.work.setOut .desk x))
      ∧ x.lost = o.lost ∧ streamBytes x.queue x.sent = (streamBytes o.queue o.sent).drop 1
      ∧ (o.queue ≠ [] → x.lastOut = ((streamBytes o.queue o.sent).getD 0 0#8).setWidth 32))
  ∧ ∀ (p : PortId) (n : Notice) (w : Work),
    (64 ≤ (w.outOf p).queue.length →
      (w.notify p n).outOf p = { w.outOf p with lost := true } ∧ (w.notify p n).errors = w.errors.setLost p
        ∧ (w.notify p n).attention = { w.attention with error := true })
    ∧ ((w.outOf p).queue.length < 64 →
        (w.notify p n).outOf p =
            { w.outOf p with queue := (w.outOf p).queue ++ [{ notice := n, lost := (w.outOf p).lost }], lost := false }
          ∧ (w.notify p n).errors = w.errors ∧ (w.notify p n).attention = w.attention)
    ∧ ∀ q, q ≠ p → (w.notify p n).outOf q = w.outOf q

/-! ### Editions and pages -/

/-- An EDITION_DECLARE that passes the checks. Of a new edition: the edition is OPEN without a hold, each listed site has its press start,
its cut-off (press start less 60 times the margin, 0 when the margin is larger), its page count, a delivered count of 0 and the state
WAITING with its cut-off armed, or LATE with the late mark where the clock has passed the cut-off; no other site is in the site set. Of an
OPEN edition: the site set becomes the list's, a site new to it stands as in a new edition, and a site it had takes press start, cut-off and
page count and keeps its delivered count. By the cut-off WAITING stays so or, passed, becomes LATE, and LATE with a later cut-off not passed
becomes WAITING; then WAITING or LATE with the page count reached is READY, and READY below its page count is WAITING or, passed, LATE;
RUNNING and CLOSED stay; a site that stays WAITING has its item on the deadline list at the new cut-off. The edition's PLATE entries at a
site whose cut-off changed take it as deadline, the site's TARGET entries the earliest of those that wait for them, and the LATE flags
follow. DECLARE_RESULT OK is the title's last notice (the model's choice, log 39); a site not named any more leaves before the others are
taken (log 10); that the edition stays OPEN where only CLOSED sites are left is the model's reading (log 40). -/
def Obligations.EditionDeclared : Prop :=
  (∀ (p : Title) (edition : Byte) (ds : List SiteDecl) (s : State),
    s.takesMessage (.title p) (.editionDeclare p edition ds) = true → declArgumentsOk edition ds = true → ds ≠ [] →
    s.work.findEdition p edition.toNat = none → s.work.editions.length < 8 →
    ∃ t r, exec (.editionDeclare p edition ds) s = .next t ∧ t.work.findEdition p edition.toNat = some r
      ∧ r.state = .opened ∧ r.hold = false ∧ (∀ i, listNames ds i = false → tget r.sites i = none)
      ∧ (∀ d ∈ ds, ∀ i, siteOf d.site = some i →
          ∀ cutoff late, cutoff = d.pressStart.toNat - 60 * cfg s.config (.margin i) →
            late = (s.work.clock.set && decide (cutoff < s.work.clock.value)) →
          tget r.sites i = some
              { pressStart := d.pressStart.toNat, cutoff := cutoff, pageCount := d.pageCount.toNat, delivered := 0,
                state := if late then .late else .waiting, lateMark := late }
            ∧ (late = false → t.work.armed p edition.toNat i = true))
      ∧ (s.work.clock.set = false →
          t.work.outOf (.title p) = (s.work.toTitle p (.editionDeclareResult edition.toNat .ok)).outOf (.title p))
      ∧ t.work.pages = s.work.pages ∧ t.work.entries.map Entry.number = s.work.entries.map Entry.number)
  ∧ ∀ (p : Title) (edition : Byte) (ds : List SiteDecl) (r : EditionRec) (s : State),
    s.takesMessage (.title p) (.editionDeclare p edition ds) = true → declArgumentsOk edition ds = true → ds ≠ [] →
    s.work.findEdition p edition.toNat = some r → r.state = .opened → s.work.omitsUsed r ds = false →
    ∃ t w x, exec (.editionDeclare p edition ds) s = .next t ∧ t.work.findEdition p edition.toNat = some x
      ∧ x.state = .opened ∧ x.hold = r.hold
      ∧ t.work.out = (Work.toTitle p (.editionDeclareResult edition.toNat .ok) w).out
      ∧ t.work.pages = s.work.pages ∧ t.work.entries.map Entry.number = s.work.entries.map Entry.number
      ∧ (∀ i, listNames ds i = false → tget x.sites i = none
          ∧ ((tget r.sites i).isSome = true → t.work.armed p edition.toNat i = false))
      ∧ ∀ d ∈ ds, ∀ i, siteOf d.site = some i →
        ∀ cutoff late, cutoff = d.pressStart.toNat - 60 * cfg s.config (.margin i) →
          late = (s.work.clock.set && decide (cutoff < s.work.clock.value)) →
        (tget r.sites i = none → tget x.sites i = some
          { pressStart := d.pressStart.toNat, cutoff := cutoff, pageCount := d.pageCount.toNat, delivered := 0,
            state := if late then .late else .waiting, lateMark := late })
        ∧ ∀ y : EditionSite, tget r.sites i = some y →
          ∀ timed final mark, timed = (match y.state with
              | .waiting => if late then SiteState.late else .waiting
              | .late => if y.cutoff < cutoff ∧ late = false then .waiting else .late
              | st => st) →
            final = (if (timed = .waiting ∨ timed = .late) ∧ 1 ≤ d.pageCount.toNat ∧ d.pageCount.toNat ≤ y.delivered then .ready
              else if timed = .ready ∧ y.delivered < d.pageCount.toNat then if late then .late else .waiting
              else timed) →
            mark = (late && (y.state == .waiting || (y.state == .ready && final == .late))) →
            tget x.sites i = some
                { pressStart := d.pressStart.toNat, cutoff := cutoff, pageCount := d.pageCount.toNat, delivered := y.delivered,
                  state := final, lateMark := y.lateMark || mark }
              ∧ (y.state ≠ .waiting → final = .waiting → t.work.armed p edition.toNat i = true)
              ∧ (y.state ≠ .waiting → final = .waiting → ∃ z ∈ t.work.deadlines, z.is p edition.toNat i = true ∧ z.cutoff = cutoff)
              ∧ (y.state = .waiting → final ≠ .waiting → t.work.armed p edition.toNat i = false)
              ∧ (y.state = .waiting → final = .waiting → (∀ z ∈ t.work.deadlines, z.is p edition.toNat i = true → z.cutoff = cutoff)
                  ∧ t.work.armed p edition.toNat i = s.work.armed p edition.toNat i)
              ∧ ∀ e ∈ t.work.entries,
                (e.plateOf p edition.toNat i = true → cutoff ≠ y.cutoff → y.state ≠ .closed → e.deadline = some cutoff)
                ∧ (e.plateOf p edition.toNat i = true → mark = true → e.late = true)
                ∧ (e.plateOf p edition.toNat i = true → y.state = .late → timed = .waiting → e.late = false)
                ∧ (∀ k, cutoff ≠ y.cutoff → y.state ≠ .closed → e.kind = .target → e.site = i → e.slot = some k →
                    e.state ≠ .aborting → e.deadline = waitingDeadline t.work.entries i k)

/-- EDITION_RETIRE of a CLOSED edition frees its pages and answers OK; the record is freed at once with EDITION_FREED when no dispatch entry
names the edition, and stands RETIRING otherwise, until EDITION_FREED is taken with no entry left. A retire of a RETIRING edition is
answered OK, of an OPEN one NOT_CLOSED, of none NO_EDITION. That an EDITION_FREED without its condition changes nothing is the model's
choice (log 35). -/
def Obligations.EditionRetired : Prop :=
  ∀ (p : Title) (edition : Byte) (s : State), editionOk edition.toNat = true →
    (s.takesMessage (.title p) (.editionRetire p edition) = true →
      (s.work.editionState p edition.toNat = some .closed → ∃ t, exec (.editionRetire p edition) s = .next t
        ∧ (∀ q ∈ t.work.pages, q.ofEdition p edition.toNat = false) ∧ t.work.entries = s.work.entries
        ∧ (s.work.entries.any (Entry.namesEdition p edition.toNat) = true →
            t.work.editionState p edition.toNat = some .retiring
              ∧ t.work.outOf (.title p) = (s.work.toTitle p (.retireResult .ok)).outOf (.title p))
        ∧ (s.work.entries.any (Entry.namesEdition p edition.toNat) = false →
            t.work.findEdition p edition.toNat = none
              ∧ t.work.outOf (.title p)
                = ((s.work.toTitle p (.retireResult .ok)).toTitle p (.editionFreed edition.toNat)).outOf (.title p)))
      ∧ ∀ r, ((s.work.editionState p edition.toNat = some .retiring ∧ r = .ok)
            ∨ (s.work.editionState p edition.toNat = some .opened ∧ r = .notClosed)
            ∨ (s.work.editionState p edition.toNat = none ∧ r = .noEdition)) →
          exec (.editionRetire p edition) s
            = .next ((s.messageTaken (.title p)).setWork (s.work.toTitle p (.retireResult r))))
    ∧ (s.work.editionState p edition.toNat = some .retiring → s.work.entries.any (Entry.namesEdition p edition.toNat) = false →
        ∃ t, exec (.editionFreed p edition) s = .next t ∧ t.work.findEdition p edition.toNat = none
          ∧ t.work.outOf (.title p) = (s.work.toTitle p (.editionFreed edition.toNat)).outOf (.title p))
    ∧ (s.work.editionState p edition.toNat ≠ some .retiring ∨ s.work.entries.any (Entry.namesEdition p edition.toNat) = true →
        exec (.editionFreed p edition) s = .next s)

/-- A PAGE_DECLARE that passes the checks: a new page's record is taken, OPEN with its declared settings and nothing held; an existing
page's declared settings are replaced and nothing else in its record changes. It is answered DECLARE_RESULT OK. A changed mask changes a
RELEASE membership's site set in its place, takes a page whose candidate is approved and COMPLETE into the backlog as RELEASE (at the tail,
or in the place of its RESEED, whose sites it carries), and leaves the backlog as it is otherwise. -/
def Obligations.PageDeclared : Prop :=
  ∀ (p : Title) (edition page colour mask slot : Byte) (c : Colour) (k : SlotNo) (r : EditionRec) (key : PageKey) (s : State),
    s.takesMessage (.title p) (.pageDeclare p edition page colour mask slot) = true →
    editionOk edition.toNat = true → pageOk page.toNat = true → colourOf colour = some c → slotOf slot = some k →
    s.work.findEdition p edition.toNat = some r → r.state = .opened → mask ≠ 0#8 → SiteSet.less mask r.siteSet = 0#8 →
    key = { title := p, edition := edition.toNat, page := page.toNat } →
    (s.work.findPage key = none → s.work.pages.length < 1024 →
      exec (.pageDeclare p edition page colour mask slot) s = .next ((s.messageTaken (.title p)).setWork
        (Work.toTitle p (.declareResult key .ok) { s.work with
          pages := s.work.pages ++ [
            { key := key, colour := c, declMask := mask, declSlot := k, state := .opened, released := none, candidate := none,
              sites := Vector.replicate 8 { held := 0, progress := 0#4 } }] })))
    ∧ ∀ q, s.work.findPage key = some q → q.state ≠ .killed → (c = q.colour ∨ (q.state = .opened ∧ q.candidate = none)) →
        ∃ t, exec (.pageDeclare p edition page colour mask slot) s = .next t
          ∧ t.work.findPage key = some { q with colour := c, declMask := mask, declSlot := k }
          ∧ (mask = q.declMask → t.work.backlog = s.work.backlog)
          ∧ (∀ places : BacklogItem → List BacklogItem, mask ≠ q.declMask →
              places = (fun it => if it.sites = 0#8 then s.work.backlog.filter (fun x => x.key != key)
                else s.work.backlog.map (fun x => if x.key == key then it else x)) →
              ∀ wanted : SiteSet → SiteSet, wanted = (fun carried =>
                SiteSet.less (mask ||| q.oldMask ||| carried) (s.work.closedSites key.title key.edition)) →
              (∀ it, s.work.findItem key = some it → it.kind = .release →
                  t.work.backlog = places { it with sites := wanted it.carried })
              ∧ (∀ it, s.work.findItem key = some it → it.kind = .reseed → q.releasable = true →
                  t.work.backlog = places { key := key, kind := .release, sites := wanted it.sites, carried := it.sites })
              ∧ (s.work.findItem key = none → q.releasable = true → t.work.backlog = s.work.backlog ++
                  (if wanted 0#8 = 0#8 then [] else [{ key := key, kind := .release, sites := wanted 0#8, carried := 0#8 }]))
              ∧ (q.releasable = false → (∀ it, s.work.findItem key = some it → it.kind ≠ .release) →
                  t.work.backlog = s.work.backlog))
          ∧ t.work.out = (s.work.toTitle p (.declareResult key .ok)).out ∧ t.work.entries = s.work.entries
          ∧ t.work.images = s.work.images

/-- An EDITION_DECLARE or a PAGE_DECLARE that fails a check is answered with that check's result, the first that fails deciding, and changes
nothing else. -/
def Obligations.DeclarationsRefused : Prop :=
  (∀ (p : Title) (edition : Byte) (ds : List SiteDecl) (s : State),
    let answered (r : Result) : Prop := exec (.editionDeclare p edition ds) s = .next
      ((s.messageTaken (.title p)).setWork (s.work.toTitle p (.editionDeclareResult edition.toNat r)))
    s.takesMessage (.title p) (.editionDeclare p edition ds) = true →
    (declArgumentsOk edition ds = false → answered .badArgument)
    ∧ (declArgumentsOk edition ds = true → ds = [] → answered .badMask)
    ∧ (∀ r, declArgumentsOk edition ds = true → ds ≠ [] → s.work.findEdition p edition.toNat = some r → r.state ≠ .opened →
        answered .editionClosed)
    ∧ (∀ r i, declArgumentsOk edition ds = true → ds ≠ [] → s.work.findEdition p edition.toNat = some r → r.state = .opened →
        (tget r.sites i).isSome = true → listNames ds i = false →
        (r.siteIs .closed i = true ∨ s.work.siteNamed r.title r.code i = true ∨ s.work.siteQueued r.title r.code i = true) →
        answered .siteInUse)
    ∧ (declArgumentsOk edition ds = true → ds ≠ [] → s.work.findEdition p edition.toNat = none → 8 ≤ s.work.editions.length →
        answered .tableFull))
  ∧ ∀ (p : Title) (edition page colour mask slot : Byte) (key : PageKey) (s : State),
    let answered (r : Result) : Prop := exec (.pageDeclare p edition page colour mask slot) s = .next
      ((s.messageTaken (.title p)).setWork (s.work.toTitle p (.declareResult key r)))
    s.takesMessage (.title p) (.pageDeclare p edition page colour mask slot) = true →
    key = { title := p, edition := edition.toNat, page := page.toNat } →
    (editionOk edition.toNat = false ∨ pageOk page.toNat = false ∨ colourOf colour = none → answered .badArgument)
    ∧ ∀ c, editionOk edition.toNat = true → pageOk page.toNat = true → colourOf colour = some c →
      (slotOf slot = none → answered .badSlot)
      ∧ ∀ k, slotOf slot = some k →
        (s.work.findEdition p edition.toNat = none → answered .noEdition)
        ∧ ∀ r, s.work.findEdition p edition.toNat = some r →
          (r.state ≠ .opened → answered .editionClosed)
          ∧ (r.state = .opened → (mask = 0#8 ∨ SiteSet.less mask r.siteSet ≠ 0#8) → answered .badMask)
          ∧ (r.state = .opened → mask ≠ 0#8 → SiteSet.less mask r.siteSet = 0#8 →
              (∀ q, s.work.findPage key = some q → q.state = .killed → answered .pageKilled)
              ∧ (∀ q, s.work.findPage key = some q → q.state ≠ .killed → c ≠ q.colour →
                  (q.state = .live ∨ q.candidate.isSome = true) → answered .liveLocked)
              ∧ (s.work.findPage key = none → 1024 ≤ s.work.pages.length → answered .tableFull))

/-! ### Images -/

/-- The Release Table's answer to an IMAGE_BEGIN of version V, with R the released version (0 if there is none) and C the candidate's: R6's
table, row by row. The row for V above R and below C is told apart from those for V at most R. -/
def Obligations.BeginAnswerFollowsVersions : Prop :=
  ∀ (q : PageRec) (sep : Sep) (n : Nat),
    (n = 0 → q.beginAnswer sep n = .error .badArgument)
    ∧ (∀ c, q.candidate = some c → n ≠ 0 → n = c.version → c.images.get sep = none → q.beginAnswer sep n = .ok .fill)
    ∧ (∀ c, q.candidate = some c → n ≠ 0 → n = c.version → c.images.get sep ≠ none → q.beginAnswer sep n = .error .duplicateSeparation)
    ∧ (q.releasedVersion < n → (∀ c, q.candidate = some c → c.version < n) → q.beginAnswer sep n = .ok .new)
    ∧ (∀ c, q.candidate = some c → q.releasedVersion < n → n < c.version → q.beginAnswer sep n = .error .staleVersion)
    ∧ (∀ r, q.candidateAbove → n ≠ 0 → q.released = some r → n = r.version → q.state = .live → SepSet.has r.resupply sep = true →
        q.beginAnswer sep n = .ok .resupply)
    ∧ (∀ r, q.candidateAbove → n ≠ 0 → q.released = some r → n = r.version → (q.state ≠ .live ∨ SepSet.has r.resupply sep = false) →
        q.beginAnswer sep n = .error .staleVersion)
    ∧ (q.candidateAbove → n ≠ 0 → n < q.releasedVersion → q.beginAnswer sep n = .error .staleVersion)

/-- An IMAGE_BEGIN that passes every check: the lowest-numbered free image record is taken in FILLING, the parser opens on it with its
counters at 0, the CRC-32 at its initial value and storing set; a new candidate stands on the page, in place of an old one, which is told to
the title; a fill or a resupply changes no page record. Where the parser has an image open, that image is discarded first and answered
INCOMPLETE with the counts reached, and the message is then taken as in IDLE. -/
def Obligations.ImageBeginAccepted : Prop :=
  (∀ (p : Title) (m : BeginMsg) (i : OpenImage) (s : State), s.takesMessage (.title p) (.imageBegin p m) = true →
    (s.work.parser p).state = .opened → (s.work.parser p).image = some i →
    exec (.imageBegin p m) s = exec (.imageBegin p m) (s.setWork
        (((s.work.freeImage i.image).toTitle p (.submitResult (some i.key) i.sep.index i.version .incomplete
          (s.work.parser p).bandCounter (s.work.parser p).byteCount)).setParser p .reset))
      ∧ (s.work.freeImage i.image).findImage i.image = none)
  ∧ ∀ (p : Title) (m : BeginMsg) (key : PageKey) (q : PageRec) (sep : Sep) (a : Acceptance) (s : State),
    s.takesMessage (.title p) (.imageBegin p m) = true → (s.work.parser p).state = .idle →
    1 ≤ m.edition.toNat → m.edition.toNat ≤ 15 → 1 ≤ m.page.toNat → m.page.toNat ≤ 128 →
    1 ≤ m.bandCount.toNat → m.bandCount.toNat ≤ 1024 →
    m.bandCount.toNat ≤ m.totalBytes.toNat → m.totalBytes.toNat ≤ m.bandCount.toNat * 245760 →
    key = { title := p, edition := m.edition.toNat, page := m.page.toNat } → s.work.findPage key = some q → q.state ≠ .killed →
    s.work.editionState p m.edition.toNat ≠ some .closed → separationFor q.colour m.separation = some sep →
    s.work.images.length < 2048 → q.beginAnswer sep m.version.toNat = .ok a →
    ∃ t id, exec (.imageBegin p m) s = .next t ∧ id < 2048 ∧ s.work.findImage id = none
      ∧ (∀ k, k < id → (s.work.findImage k).isSome = true)
      ∧ t.work.findImage id = some
          { id := id, key := key, sep := sep, version := m.version.toNat, bandCount := m.bandCount.toNat, bytesStored := 0,
            bandsStored := 0, head := none, tail := none, extentsHeld := 0, state := .filling, count := 0 }
      ∧ t.work.parser p =
          { state := .opened, image := some { image := id, key := key, sep := sep, version := m.version.toNat }, acceptance := some a,
            declaredBands := m.bandCount.toNat, declaredBytes := m.totalBytes.toNat, bandCounter := 0, byteCount := 0,
            crc := 0xFFFFFFFF#32, storing := true, result := none }
      ∧ (a ≠ .new → t.work.pages = s.work.pages ∧ t.work.out = s.work.out)
      ∧ (a = .new → t.work.findPage key = some { q with
            candidate := some { version := m.version.toNat, images := .none, state := .collecting, approved := false } })
      ∧ (a = .new → q.candidate = none → t.work.out = s.work.out)
      ∧ (∀ c, a = .new → q.candidate = some c →
          t.work.out = (s.work.toTitle p (.candidateReplaced key c.version m.version.toNat)).out)

/-- An IMAGE_BEGIN that fails a check takes no image record and leaves the page record as it is: the parser is in DISCARD and holds the
refusal, with the message's key, separation and version and counts of 0. The first check that fails decides. That a parser in DISCARD has
its other fields at their reset values is the model's choice (log 37). -/
def Obligations.ImageBeginRefused : Prop :=
  ∀ (p : Title) (m : BeginMsg) (key : PageKey) (s : State),
    let answered (r : Result) : Prop := exec (.imageBegin p m) s = .next
      ((s.messageTaken (.title p)).setWork (s.work.setParser p { Parser.reset with
        state := .discard
        result := some
          { result := r, key := key, sepCode := m.separation.toNat, version := m.version.toNat, bands := 0, bytes := 0 } }))
    s.takesMessage (.title p) (.imageBegin p m) = true → (s.work.parser p).state = .idle →
    key = { title := p, edition := m.edition.toNat, page := m.page.toNat } →
    (m.edition.toNat = 0 ∨ 15 < m.edition.toNat ∨ m.page.toNat = 0 ∨ 128 < m.page.toNat ∨ m.bandCount.toNat = 0
        ∨ 1024 < m.bandCount.toNat ∨ m.totalBytes.toNat < m.bandCount.toNat ∨ m.bandCount.toNat * 245760 < m.totalBytes.toNat →
      answered .badArgument)
    ∧ (beginArgumentsOk m = true →
        (s.work.findPage key = none → answered .noPage)
        ∧ ∀ q, s.work.findPage key = some q →
          (q.state = .killed → answered .pageKilled)
          ∧ (q.state ≠ .killed →
              (s.work.editionState p m.edition.toNat = some .closed → answered .editionClosed)
              ∧ (s.work.editionState p m.edition.toNat ≠ some .closed →
                  (separationFor q.colour m.separation = none → answered .badSeparation)
                  ∧ ∀ sep, separationFor q.colour m.separation = some sep →
                    (2048 ≤ s.work.images.length → answered .storeFull)
                    ∧ ∀ r, s.work.images.length < 2048 → q.beginAnswer sep m.version.toNat = .error r → answered r)))

/-- A BAND of an open image. One that passes the checks is counted in the parser and, while storing is set, placed by the Image Store: in
the image's tail extent where it has room with its length word, else in the lowest-numbered free extent when the title is below its quota or
the shared part has room, and otherwise not at all, the image being in OVERRUN from then on. One that fails rejects the image into DISCARD
without a notice, the first check that fails deciding. That a parser in DISCARD has its other fields at their reset values and that extent n
begins at byte n times 262,144, are the model's choices (log 37, log 38). -/
def Obligations.BandsAreCountedAndPlaced : Prop :=
  ∀ (p : Title) (mark : Byte) (payload : List Byte) (pr : Parser) (i : OpenImage) (s : State),
    let rejected (r : Result) : Prop := ∃ t, exec (.band p mark payload) s = .next t ∧ t.work.findImage i.image = none
      ∧ t.work.out = s.work.out ∧ t.work.pages = s.work.pages ∧ t.dram = s.dram
      ∧ t.work.parser p = { Parser.reset with
          state := .discard
          result := some { result := r, key := i.key, sepCode := i.sep.index, version := i.version, bands := pr.bandCounter,
                           bytes := pr.byteCount } }
    let counted (storing : Bool) : Parser :=
      { pr with
        bandCounter := pr.bandCounter + 1, byteCount := pr.byteCount + payload.length, crc := crc32Advance pr.crc payload,
        storing := storing }
    s.takesMessage (.title p) (.band p mark payload) = true → s.work.parser p = pr → pr.state = .opened → pr.image = some i →
    (mark.toNat ≠ pr.bandCounter % 16 → rejected .badBandSequence)
    ∧ (mark.toNat = pr.bandCounter % 16 → payload = [] → rejected .badArgument)
    ∧ (mark.toNat = pr.bandCounter % 16 → 245760 < payload.length → rejected .bandTooLong)
    ∧ (mark.toNat = pr.bandCounter % 16 → payload ≠ [] → payload.length ≤ 245760 → pr.bandCounter = pr.declaredBands →
        rejected .bandCountMismatch)
    ∧ (mark.toNat = pr.bandCounter % 16 → payload ≠ [] → payload.length ≤ 245760 → pr.bandCounter ≠ pr.declaredBands →
        (pr.storing = false → ∃ t, exec (.band p mark payload) s = .next t ∧ t.work = s.work.setParser p (counted false)
          ∧ t.dram = s.dram)
        ∧ ∀ r, pr.storing = true → s.work.findImage i.image = some r →
          (∀ n e, r.tail = some n → s.work.findExtent n = some e → e.used + payload.length + 4 ≤ 262144 →
            ∃ t, exec (.band p mark payload) s = .next t ∧ t.work.parser p = counted true
              ∧ t.work.findExtent n = some { e with used := e.used + payload.length + 4 } ∧ t.work.freeExtents = s.work.freeExtents
              ∧ t.work.findImage i.image = some
                  { r with bandsStored := r.bandsStored + 1, bytesStored := r.bytesStored + payload.length }
              ∧ t.dram = writeBlock s.dram (n * 262144 + e.used) (storedBand payload))
          ∧ ((∀ n e, r.tail = some n → s.work.findExtent n = some e → 262144 < e.used + payload.length + 4) →
              (s.work.extents.length < s.work.extentCount →
                s.work.used.get r.key.title < s.work.quota.get r.key.title
                  ∨ (s.work.used.a - s.work.quota.a) + (s.work.used.b - s.work.quota.b)
                    < s.work.extentCount - s.work.quota.a - s.work.quota.b →
                ∃ t n, exec (.band p mark payload) s = .next t ∧ t.work.parser p = counted true ∧ n < s.work.extentCount
                  ∧ s.work.findExtent n = none ∧ (∀ k, k < n → (s.work.findExtent k).isSome = true)
                  ∧ t.work.findExtent n = some
                      { number := n, holder := i.image, next := none, used := payload.length + 4, firstBand := pr.bandCounter }
                  ∧ t.work.freeExtents = s.work.freeExtents - 1
                  ∧ t.work.used.get r.key.title = s.work.used.get r.key.title + 1
                  ∧ t.work.findImage i.image = some
                      { r with
                        bandsStored := r.bandsStored + 1, bytesStored := r.bytesStored + payload.length,
                        head := if r.head = none then some n else r.head, tail := some n, extentsHeld := r.extentsHeld + 1 }
                  ∧ t.dram = writeBlock s.dram (n * 262144) (storedBand payload))
              ∧ (s.work.quota.get r.key.title ≤ s.work.used.get r.key.title →
                  s.work.extentCount - s.work.quota.a - s.work.quota.b
                    ≤ (s.work.used.a - s.work.quota.a) + (s.work.used.b - s.work.quota.b) →
                  ∃ t, exec (.band p mark payload) s = .next t ∧ t.work.parser p = counted false
                    ∧ t.work.extents = s.work.extents ∧ t.work.freeExtents = s.work.freeExtents
                    ∧ t.work.findImage i.image = some { r with state := .overrun } ∧ t.dram = s.dram)))

/-- An IMAGE_END of an open image. One that fails a check, or whose image was not stored whole, discards the image and is answered with that
result; a passing image is SEALED and attached to the candidate (COMPLETE when its colour is covered) or, as a resupply, to the released
version, where it leaves the resupply set; every entry of the damaged image that waits, or aborts for the damage, then names the new one
from band 0 and waits without the RESUPPLY gate, and the new image counts them and the page. It is answered OK, and STALE_VERSION when the
page no longer takes it. -/
def Obligations.ImageEndJudgesTheImage : Prop :=
  ∀ (p : Title) (total crc : Word) (pr : Parser) (i : OpenImage) (s : State),
    let result (r : Result) : Work :=
      s.work.toTitle p (.submitResult (some i.key) i.sep.index i.version r pr.bandCounter pr.byteCount)
    let discarded (r : Result) : Prop := ∃ t, exec (.imageEnd p total crc) s = .next t ∧ t.work.parser p = .reset
      ∧ t.work.findImage i.image = none ∧ t.work.pages = s.work.pages ∧ t.work.out = (result r).out
    s.takesMessage (.title p) (.imageEnd p total crc) = true → s.work.parser p = pr → pr.state = .opened → pr.image = some i →
    (pr.bandCounter ≠ pr.declaredBands → discarded .bandCountMismatch)
    ∧ (pr.bandCounter = pr.declaredBands → pr.byteCount ≠ total.toNat ∨ pr.byteCount ≠ pr.declaredBytes → discarded .byteCountMismatch)
    ∧ (pr.bandCounter = pr.declaredBands → pr.byteCount = total.toNat → pr.byteCount = pr.declaredBytes →
        (~~~pr.crc ≠ crc → discarded .checkFailed)
        ∧ (~~~pr.crc = crc → pr.storing = false → discarded .overrun)
        ∧ (~~~pr.crc = crc → pr.storing = true → pr.acceptance ≠ some .resupply →
            (∀ q c, s.work.findPage i.key = some q → q.candidate = some c → c.version = i.version → c.images.get i.sep = none →
              ∃ t refs, exec (.imageEnd p total crc) s = .next t ∧ t.work.parser p = .reset ∧ refs = c.images.put i.sep (some i.image)
                ∧ t.work.findPage i.key = some { q with candidate := some { c with
                    images := refs
                    state := if q.colour.seps.all (fun x => (refs.get x).isSome) then .complete else c.state } }
                ∧ (∀ r, s.work.findImage i.image = some r → t.work.findImage i.image = some { r with state := .sealed, count := 1 })
                ∧ t.work.out = (result .ok).out)
            ∧ ((∀ q c, s.work.findPage i.key = some q → q.candidate = some c → c.version ≠ i.version ∨ c.images.get i.sep ≠ none) →
                discarded .staleVersion))
        ∧ (~~~pr.crc = crc → pr.storing = true → pr.acceptance = some .resupply →
            (∀ q r, s.work.findPage i.key = some q → q.state = .live → q.released = some r → r.version = i.version →
              SepSet.has r.resupply i.sep = true →
              ∃ t, exec (.imageEnd p total crc) s = .next t ∧ t.work.parser p = .reset
                ∧ t.work.findPage i.key = some { q with released := some { r with
                    images := r.images.put i.sep (some i.image), resupply := r.resupply &&& ~~~(SepSet.one i.sep) } }
                ∧ (∀ old, r.images.get i.sep = some old → old ≠ i.image → ∀ e ∈ t.work.entries, e.kind = .plate → e.waiting = true →
                    e.image ≠ some old)
                ∧ (∀ old x, PoolSound s.work → r.images.get i.sep = some old → old ≠ i.image → s.work.findImage i.image = some x →
                    t.work.findImage i.image = some { x with
                        state := .sealed
                        count := 1 + (s.work.entries.filter (fun e => e.kind == .plate && e.image == some old
                          && (e.waiting || (e.state == .aborting && e.cause == some .damaged)))).length }
                      ∧ ∀ e ∈ s.work.entries, e.kind = .plate → e.image = some old →
                        e.waiting = true ∨ (e.state = .aborting ∧ e.cause = some .damaged) →
                        ∃ y ∈ t.work.entries, y.number = e.number ∧ y.image = some i.image ∧ y.acked = 0
                          ∧ (e.waiting = true → y.gates = { e.gates with resupply := false }
                              ∧ (y.state = .queued ∨ y.state = .gated) ∧ (y.state = .queued ↔ y.gates.isEmpty = true)))
                ∧ t.work.out = (result .ok).out)
            ∧ ((∀ q r, s.work.findPage i.key = some q → q.released = some r → q.state ≠ .live ∨ r.version ≠ i.version
                  ∨ SepSet.has r.resupply i.sep = false) → discarded .staleVersion)))

/-- A parser outside an image. In DISCARD a BAND is dropped and nothing changes; an IMAGE_END, without checks, appends the SUBMIT_RESULT
held and the parser is IDLE; an IMAGE_BEGIN does the same first and is then taken as in IDLE. In IDLE a BAND or an IMAGE_END is dropped with
one SUBMIT_RESULT PROTOCOL, and the parser stays IDLE. -/
def Obligations.ParsersOutsideAnImage : Prop :=
  ∀ (p : Title) (s : State),
    (∀ mark payload, s.takesMessage (.title p) (.band p mark payload) = true →
      ((s.work.parser p).state = .discard → exec (.band p mark payload) s = .next (s.messageTaken (.title p)))
      ∧ ((s.work.parser p).state = .idle →
          exec (.band p mark payload) s = .next ((s.messageTaken (.title p)).setWork
            (s.work.toTitle p (.submitResult none 0 0 .protocol 0 0)))))
    ∧ (∀ total crc, s.takesMessage (.title p) (.imageEnd p total crc) = true →
      (∀ r, (s.work.parser p).state = .discard → (s.work.parser p).result = some r →
        exec (.imageEnd p total crc) s = .next ((s.messageTaken (.title p)).setWork
          ((s.work.toTitle p (.submitResult (some r.key) r.sepCode r.version r.result r.bands r.bytes)).setParser p .reset)))
      ∧ ((s.work.parser p).state = .idle →
          exec (.imageEnd p total crc) s = .next ((s.messageTaken (.title p)).setWork
            (s.work.toTitle p (.submitResult none 0 0 .protocol 0 0)))))
    ∧ ∀ m r, (s.work.parser p).state = .discard → (s.work.parser p).result = some r →
        s.takesMessage (.title p) (.imageBegin p m) = true →
        exec (.imageBegin p m) s = exec (.imageBegin p m) (s.setWork
          ((s.work.toTitle p (.submitResult (some r.key) r.sepCode r.version r.result r.bands r.bytes)).setParser p .reset))

/-! ### Colour targets -/

/-- A TARGET_LOAD that passes the checks: the slot takes the next generation, the name, the patches and the loader; every site of the mask,
and every site that waits for an older generation, gets a TARGET entry at the new one; TARGET_RESULT OK goes to the title and then
TARGET_LOADED to the desk. One that fails changes nothing but for its TARGET_RESULT, which for a slot above 31 carries generation 0 (the
model's choice, log 19). -/
def Obligations.TargetLoadRaisesGeneration : Prop :=
  ∀ (p : Title) (m : LoadMsg) (s : State),
    let refused (slot generation : Nat) (r : Result) : Prop := exec (.targetLoad p m) s = .next
      ((s.messageTaken (.title p)).setWork (s.work.toTitle p (.targetResult slot generation r)))
    s.takesMessage (.title p) (.targetLoad p m) = true →
    (32 ≤ m.slot.toNat → refused m.slot.toNat 0 .badSlot)
    ∧ ∀ k, slotOf m.slot = some k → ∀ g set, g = (s.work.slot k).generation →
        set = m.mask ||| SiteSet.ofPred (fun i => s.work.hasTarget i k) →
        (loadPatches m = none → refused k.val g .badTarget)
        ∧ ∀ patches, loadPatches m = some patches →
          (g = 65535 → refused k.val g .slotExhausted)
          ∧ (g ≠ 65535 → 1024 - s.work.entries.length < SiteSet.count set → refused k.val g .poolFull)
          ∧ (g ≠ 65535 → SiteSet.count set ≤ 1024 - s.work.entries.length →
              ∃ (t : State) (w : Work), exec (.targetLoad p m) s = .next t
                ∧ t.work.slot k = { generation := g + 1, name := m.name, patches := patches, loader := some p }
                ∧ (∀ j, j ≠ k → t.work.slot j = s.work.slot j)
                ∧ (∀ i, SiteSet.has set i = true → ∃ e ∈ t.work.entries,
                    e.kind = .target ∧ e.site = i ∧ e.slot = some k ∧ e.generation = g + 1 ∧ e.state = .queued)
                ∧ t.work = (w.toTitle p (.targetResult k.val (g + 1) .ok)).toDesk (.targetLoaded k (g + 1) m.name p set))

/-- A slot's generation never decreases except by hard reset or soft restart, which set it to 0, never passes 65535, and an accepted
TARGET_LOAD raises it by exactly 1. -/
def Obligations.GenerationsOnlyRise : Prop :=
  ∀ (c : Instr) (s t : State) (k : SlotNo), exec c s = .next t →
    (c ≠ .hardReset → c ≠ .softRestart → (s.work.slot k).generation ≤ (t.work.slot k).generation)
    ∧ ((s.work.slot k).generation ≤ 65535 → (t.work.slot k).generation ≤ 65535)
    ∧ (c = .hardReset ∨ c = .softRestart → (t.work.slot k).generation = 0)
    ∧ ∀ p m patches, c = .targetLoad p m → slotOf m.slot = some k → s.takesMessage (.title p) c = true → loadPatches m = some patches →
        (s.work.slot k).generation ≠ 65535 →
        SiteSet.count (m.mask ||| SiteSet.ofPred (fun i => s.work.hasTarget i k)) ≤ 1024 - s.work.entries.length →
        (t.work.slot k).generation = (s.work.slot k).generation + 1

/-! ### Queries and desk commands -/

/-- The four queries change nothing; each is answered on the port it came by, OK with its data, or with the result its fields give. The
layout of the data where the spec leaves it open, and that a refusal carries none, are the model's choices (log 19, log 41, and for the
measured error count and the two titles that may be none log 53, log 56). -/
def Obligations.QueriesAnswerAndChangeNothing : Prop :=
  ∀ (p : PortId) (tag title edition page site slot : Byte) (s : State),
    let reply (type : Byte) (r : Result) (data : List Byte) : State :=
      (s.messageTaken p).setWork (match p with
        | .title u => s.work.toTitle u (.queryReply type tag r data)
        | .desk => s.work.toDesk (.reply type tag r data))
    let mayName (u : Title) : Prop := p = .title u ∨ p = .desk
    (s.takesMessage p (.pageQuery p tag title edition page) = true →
      (∀ key q, keyOf title edition page = some key → mayName key.title → s.work.findPage key = some q →
        exec (.pageQuery p tag title edition page) s = .next (reply 0x08#8 .ok (s.work.pageData q)))
      ∧ (∀ key, keyOf title edition page = some key → mayName key.title → s.work.findPage key = none →
          exec (.pageQuery p tag title edition page) s = .next (reply 0x08#8 .noPage []))
      ∧ ((∀ key, keyOf title edition page = some key → ¬mayName key.title) →
          exec (.pageQuery p tag title edition page) s = .next (reply 0x08#8 .badArgument [])))
    ∧ (s.takesMessage p (.editionQuery p tag title edition) = true →
      (∀ u r, titleOf title = some u → mayName u → editionOk edition.toNat = true → s.work.findEdition u edition.toNat = some r →
        exec (.editionQuery p tag title edition) s = .next (reply 0x09#8 .ok (s.work.editionData r)))
      ∧ (∀ u, titleOf title = some u → mayName u → editionOk edition.toNat = true → s.work.findEdition u edition.toNat = none →
          exec (.editionQuery p tag title edition) s = .next (reply 0x09#8 .noEdition []))
      ∧ ((editionOk edition.toNat = false ∨ ∀ u, titleOf title = some u → ¬mayName u) →
          exec (.editionQuery p tag title edition) s = .next (reply 0x09#8 .badArgument [])))
    ∧ (p = .desk → s.takesMessage p (.siteQuery tag site) = true →
      (∀ i, siteOf site = some i → exec (.siteQuery tag site) s = .next (reply 0x28#8 .ok (s.work.siteData i)))
      ∧ (siteOf site = none → exec (.siteQuery tag site) s = .next (reply 0x28#8 .badArgument [])))
    ∧ (p = .desk → s.takesMessage p (.colourQuery tag site slot) = true →
      (∀ i k, siteOf site = some i → slotOf slot = some k →
        exec (.colourQuery tag site slot) s = .next (reply 0x29#8 .ok (s.work.colourData s.config i k)))
      ∧ (∀ i, siteOf site = some i → slotOf slot = none → exec (.colourQuery tag site slot) s = .next (reply 0x29#8 .badSlot []))
      ∧ (siteOf site = none → exec (.colourQuery tag site slot) s = .next (reply 0x29#8 .badArgument [])))

/-- APPROVE of the candidate's version sets its approval and is answered OK; a COMPLETE candidate not approved before joins the tail of the
backlog as RELEASE, with the declared and the released mask less the CLOSED sites. Every other case is answered with its result, in the
order of the checks, and changes nothing. -/
def Obligations.ApproveReleasesToBacklog : Prop :=
  ∀ (tag title edition page version : Byte) (s : State),
    let reply (r : Result) : Work := s.work.toDesk (.reply 0x20#8 tag r [])
    let refused (r : Result) : Prop := exec (.approve tag title edition page version) s = .next
      ((s.messageTaken .desk).setWork (reply r))
    s.takesMessage .desk (.approve tag title edition page version) = true →
    (keyOf title edition page = none ∨ version = 0#8 → refused .badArgument)
    ∧ ∀ key, keyOf title edition page = some key → version ≠ 0#8 →
      (s.work.findPage key = none → refused .noPage)
      ∧ ∀ q, s.work.findPage key = some q →
        (q.state = .killed → refused .pageKilled)
        ∧ (q.state ≠ .killed →
          (s.work.editionState key.title key.edition = some .closed → refused .editionClosed)
          ∧ (s.work.editionState key.title key.edition ≠ some .closed →
            (version.toNat = q.releasedVersion → refused .alreadyReleased)
            ∧ (version.toNat < q.releasedVersion → refused .staleVersion)
            ∧ (q.releasedVersion < version.toNat →
              (q.candidate = none → refused .noSuchVersion)
              ∧ ∀ c, q.candidate = some c →
                (version.toNat < c.version → refused .staleVersion) ∧ (c.version < version.toNat → refused .noSuchVersion)
                ∧ (version.toNat = c.version → ∃ t, exec (.approve tag title edition page version) s = .next t
                    ∧ t.work.findPage key = some { q with candidate := some { c with approved := true } }
                    ∧ t.work.out = (reply .ok).out
                    ∧ (c.approved = true ∨ c.state = .collecting → t.work.backlog = s.work.backlog)
                    ∧ (∀ sites, c.approved = false → c.state = .complete → s.work.findItem key = none →
                        sites = SiteSet.less (q.declMask ||| q.oldMask) (s.work.closedSites key.title key.edition) → sites ≠ 0#8 →
                        t.work.backlog = s.work.backlog ++ [{ key := key, kind := .release, sites := sites, carried := 0#8 }])))))

/-- KILL: the page is KILLED without a candidate and without image references; its membership is WITHDRAW for the sites that hold a version
and are not CLOSED, or none; no PLATE entry of it waits any more, and one in transfer is aborting with cause KILLED; the title's parser
gives up an open image of it with PAGE_KILLED; KILLED goes to the title and OK to the desk. A refusal changes nothing. That KILLED stands
behind the readiness notices of the step is the model's reading (log 31). That a parser in DISCARD has its other fields at their reset
values is the model's choice (log 37). -/
def Obligations.KillEndsThePage : Prop :=
  ∀ (tag title edition page : Byte) (s : State),
    let refused (r : Result) : Prop := exec (.kill tag title edition page) s = .next
      ((s.messageTaken .desk).setWork (s.work.toDesk (.reply 0x21#8 tag r [])))
    s.takesMessage .desk (.kill tag title edition page) = true →
    (keyOf title edition page = none → refused .badArgument)
    ∧ ∀ key, keyOf title edition page = some key →
      (s.work.findPage key = none → refused .noPage)
      ∧ ∀ q, s.work.findPage key = some q →
        (q.state = .killed → refused .pageKilled)
        ∧ (q.state ≠ .killed → s.work.editionState key.title key.edition = some .closed → refused .editionClosed)
        ∧ (q.state ≠ .killed → s.work.editionState key.title key.edition ≠ some .closed →
            ∃ (t : State) (w : Work) (sites : SiteSet), exec (.kill tag title edition page) s = .next t
              ∧ t.work.findPage key = some { q with
                  state := .killed, candidate := none,
                  released := q.released.map (fun r => { r with images := .none, resupply := 0#4 }) }
              ∧ sites = SiteSet.less (SiteSet.ofPred (fun i => Nat.blt 0 (q.site i).held))
                  (s.work.closedSites key.title key.edition)
              ∧ t.work.findItem key
                  = (if sites = 0#8 then none else some { key := key, kind := .withdraw, sites := sites, carried := 0#8 })
              ∧ (∀ e ∈ t.work.entries, e.kind = .plate → e.key = some key → e.waiting = false)
              ∧ (PoolSound s.work → ∀ e ∈ s.work.entries, e.kind = .plate → e.key = some key → e.state = .active →
                  ∃ x ∈ t.work.entries, x.number = e.number ∧ x.state = .aborting ∧ x.cause = some .killed)
              ∧ (∀ i, (s.work.parser key.title).state = .opened → (s.work.parser key.title).image = some i → i.key = key →
                  t.work.parser key.title = { Parser.reset with
                    state := .discard
                    result := some { result := .pageKilled, key := key, sepCode := i.sep.index, version := i.version,
                                     bands := (s.work.parser key.title).bandCounter,
                                     bytes := (s.work.parser key.title).byteCount } })
              ∧ t.work.out = ((w.toTitle key.title (.killed key)).toDesk (.reply 0x21#8 tag .ok [])).out)

/-- HOLD and UNHOLD set and clear a title-wide hold (edition 0) or an edition's. A changed flag brings HOLD_STATE to the title before the
reply, and the HOLD gate of every waiting PLATE entry of that title, or edition, is as the two flags now stand, the entry QUEUED exactly
when its gate set is empty; a flag already so only brings the reply. -/
def Obligations.HoldsGateThePlates : Prop :=
  ∀ (set : Bool) (tag title edition : Byte) (c : Instr) (type : Byte) (s : State),
    let replied (w : Work) (r : Result) : Work := w.toDesk (.reply type tag r [])
    let refused (r : Result) : Prop := exec c s = .next ((s.messageTaken .desk).setWork (replied s.work r))
    let gated (w : Work) (k : PageKey) (e : Entry) : Prop := e.kind = .plate → e.key = some k → e.waiting = true →
      e.gates.hold = (w.editionHold k.title k.edition || w.titleHold.get k.title) ∧ (e.state = .queued ↔ e.gates.isEmpty = true)
    (c = if set then .hold tag title edition else .unhold tag title edition) → (type = if set then 0x22#8 else 0x23#8) →
    s.takesMessage .desk c = true →
    (titleOf title = none ∨ 15 < edition.toNat → refused .badArgument)
    ∧ ∀ u, titleOf title = some u →
      (edition = 0#8 → ∃ t, exec c s = .next t ∧ t.work.titleHold = s.work.titleHold.put u set ∧ t.work.editions = s.work.editions
        ∧ (s.work.titleHold.get u = set → t.work.out = (replied s.work .ok).out ∧ t.work.entries = s.work.entries)
        ∧ (s.work.titleHold.get u ≠ set → t.work.out = (replied (s.work.toTitle u (.holdState none set)) .ok).out
            ∧ ∀ k, k.title = u → ∀ e ∈ t.work.entries, gated t.work k e))
      ∧ (edition ≠ 0#8 → edition.toNat ≤ 15 →
          (s.work.findEdition u edition.toNat = none → refused .noEdition)
          ∧ ∀ r, s.work.findEdition u edition.toNat = some r →
            (r.state ≠ .opened → refused .editionClosed)
            ∧ (r.state = .opened → ∃ t, exec c s = .next t
                ∧ t.work.findEdition u edition.toNat = some { r with hold := set } ∧ t.work.titleHold = s.work.titleHold
                ∧ (r.hold = set → t.work.out = (replied s.work .ok).out ∧ t.work.entries = s.work.entries)
                ∧ (r.hold ≠ set → t.work.out = (replied (s.work.toTitle u (.holdState (some edition.toNat) set)) .ok).out
                    ∧ ∀ k, k.title = u → k.edition = edition.toNat → ∀ e ∈ t.work.entries, gated t.work k e)))

/-- CLOSE of sites not CLOSED yet: each becomes CLOSED and its cut-off is disarmed, no PLATE or WITHDRAW entry of the edition waits there
any more and a PLATE in transfer there is aborting with cause CLOSED, the sites leave every backlog item of the edition's pages and its
carried reseed set, and an item left without a site is gone; CLOSED goes to the title and OK to the desk; with its last site the edition is
CLOSED and the title's parser gives up an open image of it with EDITION_CLOSED. Where every named site is CLOSED already, only the reply. A
refusal changes nothing. That a parser in DISCARD has its other fields at their reset values is the model's choice (log 37). -/
def Obligations.CloseEndsEditionSites : Prop :=
  ∀ (tag title edition site : Byte) (s : State),
    let refused (r : Result) : Prop := exec (.close tag title edition site) s = .next
      ((s.messageTaken .desk).setWork (s.work.toDesk (.reply 0x24#8 tag r [])))
    s.takesMessage .desk (.close tag title edition site) = true →
    (titleOf title = none ∨ editionOk edition.toNat = false ∨ (site ≠ 0xFF#8 ∧ 8 ≤ site.toNat) → refused .badArgument)
    ∧ ∀ u sites r, titleOf title = some u → editionOk edition.toNat = true →
      (s.work.findEdition u edition.toNat = none → site = 0xFF#8 ∨ site.toNat < 8 → refused .noEdition)
      ∧ (s.work.findEdition u edition.toNat = some r → closeTargets r site = some sites →
          (r.state ≠ .opened → refused .editionClosed)
          ∧ (r.state = .opened → SiteSet.less sites r.siteSet ≠ 0#8 → refused .badMask)
          ∧ ∀ fresh, r.state = .opened → SiteSet.less sites r.siteSet = 0#8 →
            fresh = SiteSet.less sites (SiteSet.ofPred (r.siteIs .closed)) →
            (fresh = 0#8 → refused .ok)
            ∧ (fresh ≠ 0#8 → ∃ (t : State) (w : Work) (x : EditionRec), exec (.close tag title edition site) s = .next t
                ∧ t.work.findEdition u edition.toNat = some x ∧ x.siteSet = r.siteSet
                ∧ (∀ i, SiteSet.has fresh i = true →
                    tget x.sites i = (tget r.sites i).map (fun y => { y with state := .closed })
                      ∧ t.work.armed u edition.toNat i = false)
                ∧ x.state = (if SiteSet.less r.siteSet (SiteSet.ofPred (x.siteIs .closed)) = 0#8 then .closed else .opened)
                ∧ (∀ e ∈ t.work.entries, e.namesEdition u edition.toNat = true → SiteSet.has fresh e.site = true →
                    e.waiting = false)
                ∧ (PoolSound s.work → ∀ e ∈ s.work.entries, e.kind = .plate → e.namesEdition u edition.toNat = true →
                    SiteSet.has fresh e.site = true → e.state = .active →
                    ∃ y ∈ t.work.entries, y.number = e.number ∧ y.state = .aborting ∧ y.cause = some .closed)
                ∧ (BacklogSound s.work → ∀ key, t.work.findItem key = (match s.work.findItem key with
                    | none => none
                    | some it =>
                      if key.title = u ∧ key.edition = edition.toNat then
                        if SiteSet.less it.sites fresh = 0#8 then none
                        else some { it with sites := SiteSet.less it.sites fresh, carried := SiteSet.less it.carried fresh }
                      else some it))
                ∧ (∀ i, x.state = .closed → (s.work.parser u).state = .opened → (s.work.parser u).image = some i →
                    i.key.edition = edition.toNat →
                    t.work.parser u = { Parser.reset with
                      state := .discard
                      result := some { result := .editionClosed, key := i.key, sepCode := i.sep.index, version := i.version,
                                       bands := (s.work.parser u).bandCounter, bytes := (s.work.parser u).byteCount } })
                ∧ t.work.out = ((w.toTitle u (.closed edition.toNat fresh)).toDesk (.reply 0x24#8 tag .ok [])).out))

/-- The edition clock: SET_CLOCK ABSOLUTE sets it, RELATIVE moves a set clock within its range, a second adds 1 below the largest value
while it is set; each expires every armed cut-off passed, and an expired edition-site is LATE with its late mark. A RELATIVE on a clock not
set, a sum out of range or another mode is refused and changes nothing. A CUTOFF_EXPIRY takes the first armed cut-off when it has passed.
That SET_CLOCK and CLOCK_SECOND expire the cut-offs passed within their own step is the model's reading (log 4), and that a CLOCK_SECOND or
CUTOFF_EXPIRY without its condition changes nothing its choice (log 35). -/
def Obligations.ClockExpiresCutoffs : Prop :=
  ∀ (tag mode : Byte) (v : Word) (s : State),
    let answered (r : Result) : Prop := exec (.setClock tag mode v) s = .next
      ((s.messageTaken .desk).setWork (s.work.toDesk (.reply 0x25#8 tag r [])))
    let setTo (n : Nat) : Prop := ∃ (t : State) (w : Work), exec (.setClock tag mode v) s = .next t ∧ t.work.clock = { set := true, value := n }
      ∧ s.work.expiredBelow t.work n ∧ t.work = w.toDesk (.reply 0x25#8 tag .ok [])
    (s.takesMessage .desk (.setClock tag mode v) = true →
      (mode = 0#8 → setTo v.toNat)
      ∧ (mode = 1#8 → s.work.clock.set = false → answered .clockNotSet)
      ∧ (mode = 1#8 → s.work.clock.set = true → (s.work.clock.value : Int) + v.toInt < 0
            ∨ 4294967295 < (s.work.clock.value : Int) + v.toInt → answered .badArgument)
      ∧ (∀ n : Nat, mode = 1#8 → s.work.clock.set = true → (s.work.clock.value : Int) + v.toInt = n → n ≤ 4294967295 → setTo n)
      ∧ (2 ≤ mode.toNat → answered .badArgument))
    ∧ (s.work.clock.set = true → s.work.clock.value < 4294967295 → ∃ t, exec .clockSecond s = .next t
        ∧ t.work.clock = { set := true, value := s.work.clock.value + 1 } ∧ s.work.expiredBelow t.work (s.work.clock.value + 1))
    ∧ (s.work.clock.set = false ∨ 4294967295 ≤ s.work.clock.value → exec .clockSecond s = .next s)
    ∧ (∀ d rest, s.work.deadlines = d :: rest →
        (s.work.clock.set = true → d.cutoff < s.work.clock.value → ∃ t, exec .cutoffExpiry s = .next t
          ∧ t.work.armed d.title d.code d.site = false ∧ t.work.clock = s.work.clock
          ∧ (∀ x, s.work.editionSite d.title d.code d.site = some x →
              t.work.editionSite d.title d.code d.site = some { x with state := .late, lateMark := true }
                ∧ t.work.out = ((s.work.toTitle d.title (.late none d.code d.site x.cutoff)).toDesk
                    (.late (some d.title) d.code d.site x.cutoff)).out))
        ∧ (s.work.clock.set = false ∨ s.work.clock.value ≤ d.cutoff → exec .cutoffExpiry s = .next s))
    ∧ (s.work.deadlines = [] → exec .cutoffExpiry s = .next s)

/-- Training asked for outside a line failure. LINE_RETRY of a DOWN line, or of a DEGRADED one whose machine is IDLE, begins training; of a
DEGRADED line with a transfer it is left pending, and of any other line it is LINE_BUSY. PENDING_RETRAIN begins a training left so once the
machine is IDLE, and the expiry of T_retry the training of a DOWN line. That the expiry is a command, and that it and PENDING_RETRAIN change
nothing without their condition, is the model's choice (log 6, log 35), and that the frames that wait are kept, log 47. -/
def Obligations.TrainingRequests : Prop :=
  ∀ (tag site : Byte) (i : Site) (s : State),
    let begun (t : State) : Prop := t.work.trainingBegun i
      ∧ (t.work.qual i).counters.attempts = bump (s.work.qual i).counters.attempts ∧ t.work.engines = s.work.engines
      ∧ t.work.entries = s.work.entries
    (s.takesMessage .desk (.lineRetry tag site) = true →
      (8 ≤ site.toNat → exec (.lineRetry tag site) s = .next
        ((s.messageTaken .desk).setWork (s.work.toDesk (.reply 0x26#8 tag .badArgument []))))
      ∧ (siteOf site = some i →
          ((s.work.qual i).level = .down ∨ ((s.work.qual i).level = .degraded ∧ (s.work.engine i).state = .idle) →
            ∃ t, exec (.lineRetry tag site) s = .next t ∧ begun t
              ∧ t.work.out = ((s.work.toDesk (.lineTraining i .lineRetry)).toDesk (.reply 0x26#8 tag .ok [])).out)
          ∧ ((s.work.qual i).level = .degraded → (s.work.engine i).state ≠ .idle → exec (.lineRetry tag site) s = .next
              ((s.messageTaken .desk).setWork
                ((s.work.setQual i { s.work.qual i with retrainPending := true }).toDesk (.reply 0x26#8 tag .ok []))))
          ∧ ((s.work.qual i).level = .up ∨ (s.work.qual i).level = .training → exec (.lineRetry tag site) s = .next
              ((s.messageTaken .desk).setWork (s.work.toDesk (.reply 0x26#8 tag .lineBusy []))))))
    ∧ ((s.work.qual i).retrainPending = true → (s.work.qual i).level = .degraded → (s.work.engine i).state = .idle →
        ∃ t, exec (.pendingRetrain i) s = .next t ∧ begun t
          ∧ t.work.out = (s.work.toDesk (.lineTraining i .lineRetry)).out)
    ∧ ((s.work.qual i).retrainPending = false ∨ (s.work.qual i).level ≠ .degraded ∨ (s.work.engine i).state ≠ .idle →
        exec (.pendingRetrain i) s = .next s)
    ∧ ((s.work.qual i).tRetry.isSome = true → (s.work.qual i).level = .down →
        ∃ t, exec (.tRetryExpiry i) s = .next t ∧ begun t
          ∧ t.work.out = (s.work.toDesk (.lineTraining i .retryTimer)).out)
    ∧ ((s.work.qual i).tRetry = none ∨ (s.work.qual i).level ≠ .down → exec (.tRetryExpiry i) s = .next s)

/-- COLOUR_CLEAR, checked in order: a site above 7 is BAD_ARGUMENT, a slot above 31 BAD_SLOT, a record whose hold flag is clear NOT_HELD,
and each changes nothing. A set hold is cleared: the record is reset, the COLOUR gate of the slot's waiting plates at the site removed,
COLOUR_CLEARED with cause DESK appended, and the desk then answered OK. -/
def Obligations.ColourClearEndsAHold : Prop :=
  ∀ (tag site slot : Byte) (s : State),
    let refused (r : Result) : Prop := exec (.colourClear tag site slot) s = .next
      ((s.messageTaken .desk).setWork (s.work.toDesk (.reply 0x27#8 tag r [])))
    s.takesMessage .desk (.colourClear tag site slot) = true →
    (8 ≤ site.toNat → refused .badArgument)
    ∧ ∀ i, siteOf site = some i →
      (32 ≤ slot.toNat → refused .badSlot)
      ∧ ∀ k, slotOf slot = some k →
        ((s.work.check i k).hold = false → refused .notHeld)
        ∧ ((s.work.check i k).hold = true → ∃ t, exec (.colourClear tag site slot) s = .next t
            ∧ t.work.check i k = { outCount := 0, hold := false, holdGeneration := 0, lastWorst := none, sessionWorst := none,
                                   sumSquares := 0, readings := 0 }
            ∧ (∀ j n, (j, n) ≠ (i, k) → t.work.check j n = s.work.check j n)
            ∧ (∀ e ∈ t.work.entries, e.kind = .plate → e.waiting = true → e.site = i → e.slot = some k →
                e.gates.colour = false ∧ (e.state = .queued ↔ e.gates.isEmpty = true))
            ∧ t.work.out = ((s.work.toDesk (.colourCleared i k .desk)).toDesk (.reply 0x27#8 tag .ok [])).out)

/-! ### Admission and hand-over -/

/-- ADMISSION with no target want marked: a RELEASE head whose need the free records cover is taken from the backlog and its page released:
LIVE, the candidate become the released version with the declared mask less the CLOSED sites, the declared slot and its current generation,
an empty resupply set, and every site's progress emptied. RELEASED goes to the title, whose queue has room (at most 16 readiness notices
stand before it, log 31). Where it is the last item, the page leaves the delivered count of every site that counted it, and a READY site now
below its page count is WAITING with its cut-off armed or, passed, LATE. A head whose need is not covered blocks: nothing changes. -/
def Obligations.AdmissionReleasesThePage : Prop :=
  ∀ s : State, s.work.wants = [] →
    (s.work.backlog = [] → exec .admission s = .next s)
    ∧ ∀ i rest, s.work.backlog = i :: rest →
      (s.work.freeRecords < s.work.need i → exec .admission s = .next s)
      ∧ ∀ q c, s.work.need i ≤ s.work.freeRecords → i.kind = .release → s.work.findPage i.key = some q → q.candidate = some c →
        ∃ t x, exec .admission s = .next t ∧ t.work.findItem i.key = none ∧ t.work.findPage i.key = some x
          ∧ x.state = .live ∧ x.candidate = none ∧ x.colour = q.colour ∧ x.declMask = q.declMask ∧ x.declSlot = q.declSlot
          ∧ x.released = some
              { version := c.version, images := c.images,
                mask := SiteSet.less q.declMask (s.work.closedSites i.key.title i.key.edition), slot := q.declSlot,
                generation := (s.work.slot q.declSlot).generation, resupply := 0#4 }
          ∧ (∀ j, x.site j = { q.site j with progress := 0#4 })
          ∧ ((s.work.outOf (.title i.key.title)).queue.length ≤ 47 →
              ∃ n ∈ (t.work.outOf (.title i.key.title)).queue, n.notice = .released i.key c.version
                (SiteSet.less q.declMask (s.work.closedSites i.key.title i.key.edition)))
          ∧ (rest = [] → s.work.editionState i.key.title i.key.edition ≠ some .retiring →
              ∀ j y, s.work.editionSite i.key.title i.key.edition j = some y →
                (q.countedAt j = false → t.work.editionSite i.key.title i.key.edition j = some y)
                ∧ (q.countedAt j = true → ∀ lost late : Bool,
                    lost = (y.state == .ready && decide (y.delivered - 1 < y.pageCount)) →
                    late = (s.work.clock.set && decide (y.cutoff < s.work.clock.value)) →
                    t.work.editionSite i.key.title i.key.edition j = some
                        { y with
                          delivered := y.delivered - 1
                          state := if lost then if late then .late else .waiting else y.state
                          lateMark := y.lateMark || (lost && late) }
                      ∧ (lost = true → late = false → t.work.armed i.key.title i.key.edition j = true)))

/-- What an admission does to the queues. A RELEASE first takes the page's older plates back at every open site of the two masks, and a
RESEED at every site of its set: one that waits is removed, one in transfer aborts with cause SUPERSEDED, one CONFIRMING or ABORTING stays;
a RELEASE also frees a QUEUED WITHDRAW at the declared mask's sites. Both create, the RELEASE at every open site of the declared mask, a
PLATE for each separation of the colour that has an image: of the released version, with its slot and bound generation, the edition-site's
cut-off as deadline, LATE as the edition-site is, and the gates its conditions give (TARGET below the bound generation, HOLD, COLOUR,
RESUPPLY for a damaged image), QUEUED exactly when it has none; and a TARGET entry, at the slot's generation, where the holding is below the
bound one and no TARGET stands outside ABORTING. At the old mask's other sites a RELEASE, and at its sites a WITHDRAW item, creates a
WITHDRAW of the held version where it is above 0 and the queue has none of the page; a RESEED creates and removes none. TARGET_WANT_SERVED
creates a TARGET for the first marked want that still exists while a record is free, unmarks those that exist no more, and with no record
free leaves it the first. -/
def Obligations.AdmissionQueuesEntries : Prop :=
  ∀ s : State,
    let withdraws (w : Work) (key : PageKey) (j : Site) : List Entry := w.entries.filter (fun e => e.withdrawOfPage key && e.site == j)
    let supplied (t : State) (key : PageKey) (j : Site) (sep : Sep) (version id : Nat) (k : SlotNo) (bound : Nat) : Prop :=
      (∃ e ∈ t.work.entries, e.kind = .plate ∧ e.site = j ∧ e.key = some key ∧ e.sep = some sep ∧ e.version = version
        ∧ e.image = some id ∧ e.slot = some k ∧ e.generation = bound ∧ e.waiting = true ∧ e.acked = 0 ∧ e.refusals = 0
        ∧ s.work.insertion ≤ e.seq ∧ e.gates.target = decide (s.work.holding j k < bound) ∧ e.gates.colour = (s.work.check j k).hold
        ∧ (PagesSound s.work → ImagesSound s.work → e.gates.resupply = s.work.imageDamaged id)
        ∧ (e.state = .queued ↔ e.gates.isEmpty = true)
        ∧ (s.work.editionState key.title key.edition ≠ some .retiring →
            e.gates.hold = (s.work.editionHold key.title key.edition || s.work.titleHold.get key.title)
              ∧ e.deadline = (t.work.editionSite key.title key.edition j).map EditionSite.cutoff
              ∧ e.late = ((t.work.editionSite key.title key.edition j).map EditionSite.state == some .late)))
      ∧ (s.work.holding j k < bound → ∃ e ∈ t.work.entries, e.kind = .target ∧ e.site = j ∧ e.slot = some k ∧ e.state ≠ .aborting
          ∧ (s.work.hasTarget j k = false → e.generation = (s.work.slot k).generation ∧ e.state = .queued))
    let takenBack (t : State) (key : PageKey) (j : Site) (isNew : Entry → Prop) : Prop :=
      (∀ e ∈ t.work.entries, e.kind = .plate → e.site = j → e.key = some key →
        e.state = .aborting ∨ e.state = .confirming ∨ (isNew e ∧ e.waiting = true ∧ s.work.insertion ≤ e.seq))
      ∧ ∀ e ∈ s.work.entries, e.kind = .plate → e.site = j → e.key = some key →
        (e.state = .active → ∃ x ∈ t.work.entries, x.number = e.number ∧ x.state = .aborting ∧ x.cause = some .superseded)
        ∧ (e.state = .confirming ∨ e.state = .aborting → ∃ x ∈ t.work.entries, x.number = e.number ∧ x.state = e.state
            ∧ x.cause = e.cause ∧ x.version = e.version)
    let withdrawnAt (t : State) (q : PageRec) (j : Site) : Prop :=
      ((q.site j).held = 0 ∨ withdraws s.work q.key j ≠ [] → withdraws t.work q.key j = withdraws s.work q.key j)
        ∧ (0 < (q.site j).held → withdraws s.work q.key j = [] →
            ∃ e, withdraws t.work q.key j = [e] ∧ e.version = (q.site j).held ∧ e.state = .queued)
    (∀ i rest q, PoolSound s.work → s.work.wants = [] → s.work.backlog = i :: rest → s.work.findPage i.key = some q →
      s.work.need i ≤ s.work.freeRecords → ∃ t, exec .admission s = .next t
        ∧ (∀ c j, i.kind = .release → q.candidate = some c →
            (SiteSet.has (s.work.openSites i.key q.declMask) j = true →
              (∀ sep id, sep ∈ q.colour.seps → c.images.get sep = some id →
                supplied t i.key j sep c.version id q.declSlot (s.work.slot q.declSlot).generation)
              ∧ withdraws t.work i.key j = (withdraws s.work i.key j).filter (fun e => e.state != .queued))
            ∧ (SiteSet.has (s.work.openSites i.key q.declMask ||| s.work.openSites i.key q.oldMask) j = true →
                takenBack t i.key j (fun e => e.version = c.version ∧ SiteSet.has (s.work.openSites i.key q.declMask) j = true))
            ∧ (SiteSet.has (SiteSet.less (s.work.openSites i.key q.oldMask) (s.work.openSites i.key q.declMask)) j = true →
                withdrawnAt t q j))
        ∧ (∀ r j, i.kind = .reseed → q.released = some r →
            (SiteSet.has i.sites j = true →
              (∀ sep id, sep ∈ q.colour.seps → r.images.get sep = some id →
                supplied t i.key j sep r.version id r.slot r.generation)
              ∧ takenBack t i.key j (fun e => e.version = r.version))
            ∧ withdraws t.work i.key j = withdraws s.work i.key j)
        ∧ (∀ j, i.kind = .withdraw → SiteSet.has i.sites j = true → withdrawnAt t q j))
    ∧ (∀ passed j k rest, s.work.wants = passed ++ (j, k) :: rest → (∀ x ∈ passed, s.work.wantExists x.1 x.2 = false) →
        s.work.wantExists j k = true →
        (s.work.entries.length < 1024 → ∃ t, exec .targetWantServed s = .next t ∧ ∃ e ∈ t.work.entries,
          e.kind = .target ∧ e.site = j ∧ e.slot = some k ∧ e.generation = (s.work.slot k).generation ∧ e.state = .queued)
        ∧ (1024 ≤ s.work.entries.length →
            exec .targetWantServed s = .next { s with work := { s.work with wants := (j, k) :: rest } }))
    ∧ ((∀ x ∈ s.work.wants, s.work.wantExists x.1 x.2 = false) →
        exec .targetWantServed s = .next { s with work := { s.work with wants := [] } })

/-- A hand-over on a line in service whose machine is IDLE: the title arbiter takes the first QUEUED entry of the queue, or, where that is a
PLATE of the title started last, the first QUEUED PLATE of the other title whose deadline lies within the tie window of it. The entry is
ACTIVE, the machine carries it under the next tag from its acknowledged band on, its first frame (PLATE_OPEN with the image's bands and
bytes, the flag of a version held and the resume index; TARGET_SET with name and patches; PAGE_WITHDRAW) goes to the line, and a PLATE's
title is recorded. A line that cannot take an entry, or has none, keeps its state (that a retrain owed goes first is the model's reading,
log 26, and that band reads asked before are kept and dropped, and next band and sent mark set for every kind, its choice, log 12, log 46).
The queue holds exactly the entries of the site, WITHDRAW ahead of all others, then by deadline, none last, then TARGET ahead of PLATE, then
in the order of creation; two WITHDRAW entries are ordered by creation alone. -/
def Obligations.HandOverStartsATransfer : Prop :=
  ∀ (i : Site) (s : State) (queued : List Entry), queued = (s.work.queue i).filter (fun e => e.state == .queued) →
    let started (e : Entry) : Prop := ∃ t tag, exec (.handOver i) s = .next t ∧ tag = ((s.work.engine i).counter + 1) % 256
      ∧ t.work.engine i = { s.work.engine i with
          state := if e.kind = .plate then .opening else .sending, current := some e.number, counter := tag, tag := tag, expiry := 0,
          readOutstanding := none, nextBand := e.acked, sentMark := e.acked,
          reads := (s.work.engine i).reads.map (fun r => { r with use := .dropped }),
          tx := (s.work.engine i).tx ++ s.work.firstFrame tag e }
      ∧ (∀ x ∈ t.work.entries, x.number = e.number → x.state = .active)
      ∧ tget t.work.arbiters i = (match e.kind, e.key with
          | .plate, some k => some k.title
          | _, _ => tget s.work.arbiters i)
      ∧ t.work.quals = s.work.quals ∧ t.work.out = s.work.out
    let earlierThan (x y : Option Nat) : Prop := match x, y with
      | some a, some b => a < b
      | some _, none => True
      | none, _ => False
    let ahead (x y : Entry) : Prop :=
      (x.kind = .withdraw ∧ y.kind ≠ .withdraw)
        ∨ (x.kind = .withdraw ∧ y.kind = .withdraw ∧ x.seq ≤ y.seq)
        ∨ (x.kind ≠ .withdraw ∧ y.kind ≠ .withdraw
            ∧ (earlierThan x.deadline y.deadline
              ∨ (x.deadline = y.deadline ∧ ((x.kind = .target ∧ y.kind = .plate) ∨ (x.kind = y.kind ∧ x.seq ≤ y.seq)))))
    let first (e x : Entry) : Bool := e.kind == .plate
      && (match e.key, tget s.work.arbiters i with
          | some k, some last => k.title == last
          | _, _ => false)
      && x.kind == .plate
      && (match e.key, x.key, e.deadline, x.deadline with
          | some k, some k', some d, some d' => k'.title != k.title && decide (d' ≤ d + cfg s.config .tieWindow)
          | _, _, _, _ => false)
    (s.work.queue i).Pairwise ahead
    ∧ (s.work.queue i).Perm (s.work.entries.filter (fun e => e.site == i))
    ∧ ((s.work.qual i).inService = true → (s.work.engine i).state = .idle →
        ((s.work.qual i).level = .up ∨ (s.work.qual i).retrainPending = false) →
        (queued = [] → exec (.handOver i) s = .next s)
        ∧ ∀ e rest, queued = e :: rest →
          (∀ x, queued.find? (first e) = some x → started x) ∧ (queued.find? (first e) = none → started e))
    ∧ ((s.work.qual i).inService = false ∨ (s.work.engine i).state ≠ .idle
        ∨ ((s.work.qual i).level = .degraded ∧ (s.work.qual i).retrainPending = true) → exec (.handOver i) s = .next s)
    ∧ ∀ (tag : Nat) (e : Entry),
      (∀ key sep k r, e.kind = .plate → e.key = some key → e.sep = some sep → e.slot = some k →
        e.image.bind s.work.findImage = some r →
        s.work.firstFrame tag e = [.plateOpen tag key sep e.version k e.generation r.bandsStored r.bytesStored
          (match s.work.findPage key with
            | some q => decide (0 < (q.site e.site).held)
            | none => false) e.acked])
      ∧ (∀ k, e.kind = .target → e.slot = some k →
          s.work.firstFrame tag e = [.targetSet tag k e.generation (s.work.slot k).name (s.work.slot k).patches])
      ∧ (∀ key, e.kind = .withdraw → e.key = some key → s.work.firstFrame tag e = [.pageWithdraw tag key e.version])

/-! ### Transfers -/

/-- The frame in transmission has left the line: the next one follows. A PLATE_OPEN of the transfer starts T_ack in OPENING; a TARGET_SET or
PAGE_WITHDRAW takes the machine from SENDING to CONFIRMING with T_conf started and the entry CONFIRMING (or, its entry aborting, to ABORTING
with T_ack started), and starts T_conf again in CONFIRMING; after the last BAND of the transfer the machine is DRAINING, and otherwise the
next band is read while the window is open. That a TARGET entry is ABORTING before its TARGET_SET has left is the model's reading (log 14).
The list of frames and the latch of what left are the model's (log 13, log 1), and that nothing happens on a line that sends no frame is its
choice (log 35). -/
def Obligations.FramesLeaveTheLine : Prop :=
  ∀ (i : Site) (s : State) (g : Engine), g = s.work.engine i →
    (g.tx = [] → exec (.frameLeftLine i) s = .next s)
    ∧ ∀ f rest, g.tx = f :: rest → ∃ t x, exec (.frameLeftLine i) s = .next t ∧ x = t.work.engine i ∧ x.tx = rest ∧ x.lineOut = f.words
      ∧ (∀ key sep version k gen bands bytes held resume, f = .plateOpen g.tag key sep version k gen bands bytes held resume →
          x.state = g.state ∧ (g.state = .opening → x.tAck = some (cfg s.config .tAck)) ∧ (g.state ≠ .opening → x.tAck = g.tAck))
      ∧ (∀ e, s.work.current i = some e →
          (∃ k gen name patches, f = .targetSet g.tag k gen name patches) ∨ (∃ key version, f = .pageWithdraw g.tag key version) →
          (g.state = .sending → e.state ≠ .aborting → x.state = .confirming ∧ x.tAck = none ∧ x.tConf = some (cfg s.config .tConf)
            ∧ ∀ y ∈ t.work.entries, y.number = e.number → y.state = .confirming)
          ∧ (g.state = .sending → e.state = .aborting → x.state = .aborting ∧ x.tAck = some (cfg s.config .tAck)
              ∧ t.work.entries = s.work.entries)
          ∧ (g.state = .confirming → x.state = .confirming ∧ x.tConf = some (cfg s.config .tConf)
              ∧ t.work.entries = s.work.entries))
      ∧ (∀ e image index payload, f = .band g.tag index payload → s.work.current i = some e → e.kind = .plate →
          e.image = some image → g.state = .sending → g.readOutstanding = none →
          (g.nextBand = s.work.imageBands e → (∀ n b, .band g.tag n b ∉ rest) → x.state = .draining)
          ∧ (g.nextBand < s.work.imageBands e → g.nextBand - e.acked < s.work.window s.config i →
              x.state = .sending ∧ x.reads = g.reads ++ [{ image := image, band := g.nextBand, use := .live }]
                ∧ x.readOutstanding = some g.nextBand ∧ x.nextBand = g.nextBand + 1))
      ∧ (∀ tag key sep version, f = .plateAbort tag key sep version → x.state = g.state ∧ t.work.entries = s.work.entries)

/-- A band read answered: a sound read of a SEALED image goes to the line as the band it was asked for while its transfer sends and has not
gone back since, and what ECC corrected is counted; an uncorrectable one marks the image DAMAGED with its counter and flags, puts the
separation in the page's resupply set where the released version names it, or takes it from the candidate, which collects again and leaves
the backlog, where that names it, either with RESUPPLY_NEEDED to the title, gates each waiting entry of the image that the released version
stands for with RESUPPLY, from band 0, and removes any other; and it aborts the transfer for damage, a go-back or not (log 48). A read of an
image DAMAGED before is such an answer without the image's part. A scrub at its position does the same to a SEALED image without a transfer,
passes everything else by, and advances. What the ECC finds comes with the command, the oldest read is answered first, and with no read
outstanding nothing happens, which are the model's choices (log 8, log 12, log 35); the largest value of the two DRAM counters is its
reading (log 21). -/
def Obligations.DramReadsAndScrubs : Prop :=
  ∀ (i : Site) (ecc : EccOutcome) (s : State),
    let named (im : ImageRec) (q : PageRec) : Prop := q.state = .live ∧ ∃ r, q.released = some r ∧ r.images.get im.sep = some im.id
    let told (im : ImageRec) (version : Nat) (t : State) : Prop :=
      (∃ w : Work, t.work.out = (w.toTitle im.key.title (.resupplyNeeded im.key im.sep version)).out)
        ∧ ((∀ x ∈ s.work.editions, x.state ≠ .retiring) →
            t.work.out = (s.work.toTitle im.key.title (.resupplyNeeded im.key im.sep version)).out)
    let damaged (im : ImageRec) (t : State) : Prop := (∀ x, t.work.findImage im.id = some x → x.state = .damaged)
      ∧ t.work.uncorrectable = bump s.work.uncorrectable ∧ t.work.errors.dramUncorrectable = true ∧ t.work.attention.error = true
      ∧ (∀ q r, s.work.findPage im.key = some q → q.state = .live → q.released = some r → r.images.get im.sep = some im.id →
          t.work.findPage im.key = some { q with released := some { r with resupply := r.resupply ||| SepSet.one im.sep } })
      ∧ (∀ q c, s.work.findPage im.key = some q → ¬named im q → q.candidate = some c → c.images.get im.sep = some im.id →
          t.work.findPage im.key = some { q with
              candidate := some { c with images := c.images.put im.sep none, state := .collecting } }
            ∧ (c.state = .complete → ∀ it, t.work.findItem im.key = some it → it.kind ≠ .release)
            ∧ told im c.version t)
      ∧ (∀ q r, s.work.findPage im.key = some q → q.state = .live → q.released = some r → r.images.get im.sep = some im.id →
          told im r.version t)
      ∧ ((∀ q, s.work.findPage im.key = some q → ¬named im q ∧ ∀ c, q.candidate = some c → c.images.get im.sep ≠ some im.id) →
          (∀ x ∈ s.work.editions, x.state ≠ .retiring) → t.work.out = s.work.out)
      ∧ (PoolSound s.work → ∀ e ∈ s.work.entries, e.kind = .plate → e.image = some im.id → e.waiting = true →
          s.work.current i ≠ some e →
          (s.work.releasedNames e im.id = true → ∃ x ∈ t.work.entries, x.number = e.number ∧ x.image = e.image ∧ x.acked = 0
              ∧ x.state = .gated ∧ x.gates = { e.gates with resupply := true })
          ∧ (s.work.releasedNames e im.id = false → ∀ x ∈ t.work.entries, x.number = e.number → x.kind = .target))
    let aborted (r : BandRead) (t : State) : Prop := ∀ e key sep, PoolSound s.work → r.use ≠ .dropped →
      (s.work.engine i).state = .sending ∨ (s.work.engine i).state = .draining → s.work.current i = some e → e.kind = .plate →
      e.key = some key → e.sep = some sep → e.state = .active →
      (t.work.engine i).state = .aborting ∧ (t.work.engine i).tAck = some (cfg s.config .tAck)
        ∧ ∃ x ∈ t.work.entries, x.number = e.number ∧ x.state = .aborting ∧ x.cause = some .damaged
    ((s.work.engine i).reads = [] → exec (.bandReadDone i ecc) s = .next s)
    ∧ (∀ r rest im, (s.work.engine i).reads = r :: rest → s.work.findImage r.image = some im → im.state = .sealed →
        (ecc.uncorrectable = false → ∃ t, exec (.bandReadDone i ecc) s = .next t
          ∧ t.work.corrected = min 4294967295 (s.work.corrected + ecc.corrected)
          ∧ (r.use = .live → (s.work.engine i).state = .sending ∨ (s.work.engine i).state = .draining →
              (t.work.engine i).tx = (s.work.engine i).tx
                  ++ [.band (s.work.engine i).tag r.band (s.work.readBand s.dram im r.band)]
                ∧ (t.work.engine i).sentMark = max (s.work.engine i).sentMark (r.band + 1))
          ∧ (r.use ≠ .live → (t.work.engine i).tx = (s.work.engine i).tx
              ∧ (t.work.engine i).sentMark = (s.work.engine i).sentMark))
        ∧ (ecc.uncorrectable = true → ∃ t, exec (.bandReadDone i ecc) s = .next t ∧ damaged im t ∧ aborted r t))
    ∧ (∀ r rest im, (s.work.engine i).reads = r :: rest → s.work.findImage r.image = some im → im.state = .damaged →
        ∃ t, exec (.bandReadDone i ecc) s = .next t ∧ aborted r t ∧ t.work.images = s.work.images ∧ t.work.pages = s.work.pages
          ∧ t.work.corrected = s.work.corrected ∧ t.work.uncorrectable = s.work.uncorrectable ∧ t.work.errors = s.work.errors
          ∧ (t.work.engine i).sentMark = (s.work.engine i).sentMark
          ∧ (r.use = .dropped → t.work.entries = s.work.entries ∧ (t.work.engine i).tx = (s.work.engine i).tx))
    ∧ ∃ t, exec (.scrub ecc) s = .next t
        ∧ t.work.scrubPos = (if s.work.scrubPos + 1 < s.work.extentCount then s.work.scrubPos + 1 else 0)
        ∧ (∀ x im, s.work.findExtent s.work.scrubPos = some x → s.work.findImage x.holder = some im → im.state = .sealed →
            t.work.corrected = min 4294967295 (s.work.corrected + ecc.corrected) ∧ (ecc.uncorrectable = true → damaged im t))
        ∧ ((∀ x im, s.work.findExtent s.work.scrubPos = some x → s.work.findImage x.holder = some im → im.state ≠ .sealed) →
            t.work = { s.work with scrubPos := t.work.scrubPos })

/-- Frames of a line that is not in service, and bad frames and lost framing there, are ignored. A tagged answer with the machine IDLE or
with another tag is counted as a stray frame and otherwise dropped; as every frame that is not bad it counts in the in-service window. -/
def Obligations.StrayFramesAreDropped : Prop :=
  ∀ (c : Instr) (i : Site) (s : State),
    (inboundOf c = some i → (s.work.qual i).level = .down ∨ (s.work.qual i).level = .training → exec c s = .next s)
    ∧ ∀ tag, answerOf c = some (i, tag) → (s.work.qual i).inService = true →
        (s.work.engine i).state = .idle ∨ (s.work.engine i).tag ≠ tag.toNat →
        exec c s = .next { s with work := { s.work with
          quals := tput s.work.quals i { s.work.qual i with
            windowFrames := if (s.work.qual i).windowFrames + 1 = 256 then 0 else (s.work.qual i).windowFrames + 1
            windowBad := if (s.work.qual i).windowFrames + 1 = 256 then 0 else (s.work.qual i).windowBad }
          engines := tput s.work.engines i { s.work.engine i with strayFrames := bump (s.work.engine i).strayFrames } } }

/-- OPEN_ACK and BAND_ACK of the transfer in progress. A resume index at most the acknowledged band count resumes there: CONFIRMING where
every band is acknowledged, else SENDING with T_ack started and the first read asked while the window allows; a higher one is a line
failure. A band count above the sent mark is a line failure, one that does not rise is ignored, and one that rises is the acknowledged
count, CONFIRMING where it is every band and T_ack started again otherwise. Either answer to an entry that is no PLATE is a line failure. -/
def Obligations.AcknowledgementsMoveTheTransfer : Prop :=
  ∀ (i : Site) (tag : Byte) (n : BitVec 16) (e : Entry) (s : State) (g : Engine), g = s.work.engine i →
    let failed (c : Instr) : Prop := ∃ (t : State) (w : Work), exec c s = .next t ∧ s.work.lineFailed t.work i
      ∧ t.work.out = (w.toDesk (.lineTraining i .protocol)).out
    let dropped (c : Instr) : Prop := exec c s = .next (s.setWork (s.work.modQual i Qualifier.goodFrame))
    let acked (t : State) : Prop := ∀ x ∈ t.work.entries, x.number = e.number → x.acked = n.toNat
    let confirming (t : State) : Prop := (t.work.engine i).state = .confirming ∧ (t.work.engine i).tAck = none
      ∧ (t.work.engine i).tConf = some (cfg s.config .tConf) ∧ ∀ x ∈ t.work.entries, x.number = e.number → x.state = .confirming
    (s.work.qual i).inService = true → g.state ≠ .idle → g.tag = tag.toNat → s.work.current i = some e →
    (e.kind ≠ .plate → failed (.openAck i tag n) ∧ failed (.bandAck i tag n))
    ∧ (e.kind = .plate →
        (g.state = .opening → e.acked < n.toNat → failed (.openAck i tag n))
        ∧ (g.state ≠ .opening → dropped (.openAck i tag n))
        ∧ (g.state = .opening → n.toNat ≤ e.acked → ∃ t, exec (.openAck i tag n) s = .next t ∧ acked t
            ∧ (t.work.engine i).sentMark = n.toNat
            ∧ (n.toNat = s.work.imageBands e → confirming t)
            ∧ (n.toNat ≠ s.work.imageBands e → (t.work.engine i).state = .sending ∧ (t.work.engine i).expiry = 0
                ∧ (t.work.engine i).tAck = some (cfg s.config .tAck))
            ∧ (g.readOutstanding = none → n.toNat < s.work.imageBands e → 0 < s.work.window s.config i →
                ∃ image, e.image = some image ∧ (t.work.engine i).nextBand = n.toNat + 1
                  ∧ (t.work.engine i).reads = g.reads ++ [{ image := image, band := n.toNat, use := .live }]))
        ∧ (g.state = .aborting → dropped (.bandAck i tag n))
        ∧ (g.state ≠ .aborting → g.sentMark < n.toNat → failed (.bandAck i tag n))
        ∧ (g.state ≠ .aborting → n.toNat ≤ g.sentMark → n.toNat ≤ e.acked → dropped (.bandAck i tag n))
        ∧ (g.state ≠ .aborting → n.toNat ≤ g.sentMark → e.acked < n.toNat → ∃ t, exec (.bandAck i tag n) s = .next t ∧ acked t
            ∧ (t.work.engine i).expiry = 0
            ∧ (n.toNat = s.work.imageBands e → confirming t)
            ∧ (n.toNat ≠ s.work.imageBands e → (t.work.engine i).tAck = some (cfg s.config .tAck))))

/-- The answers that end a transfer. PLATE_DONE in CONFIRMING or DRAINING, or in OPENING with every band acknowledged, delivers the
separation: it joins the site's progress, the held version follows when the colour is covered, with DELIVERED to the title, and the page
joins the delivered count there: a WAITING or LATE edition-site whose page count is reached is READY, disarmed, with READY to title and
desk. A plate of another version, or of a KILLED page, is a STRAY_PLATE to both and changes no page; a late plate is counted. WITHDRAW_ACK
in CONFIRMING leaves the site without the page. ABORT_ACK in ABORTING ends the abort of a plate. Each frees its entry and the machine is
IDLE; an abort for damage returns the entry instead, from band 0, with the RESUPPLY gate or with the image swapped in meanwhile. Out of
place, or for an entry it does not belong to, each is a line failure, and WITHDRAW_ACK of a WITHDRAW not confirming is dropped (log 15). The
largest value of the late plate counter is the model's reading (log 21). -/
def Obligations.AnswersThatEndATransfer : Prop :=
  ∀ (i : Site) (tag : Byte) (e : Entry) (s : State) (g : Engine), g = s.work.engine i →
    let failed (c : Instr) : Prop := ∃ (t : State) (w : Work), exec c s = .next t ∧ s.work.lineFailed t.work i
      ∧ t.work.out = (w.toDesk (.lineTraining i .protocol)).out
    let freed (t : State) : Prop := t.work.transferIdle i ∧ ∀ x ∈ t.work.entries, x.number = e.number → x.kind = .target
    (s.work.qual i).inService = true → g.state ≠ .idle → g.tag = tag.toNat → s.work.current i = some e →
    (e.kind = .plate → g.state = .confirming ∨ g.state = .draining ∨ (g.state = .opening ∧ e.acked = s.work.imageBands e) →
        ∃ t, exec (.plateDone i tag) s = .next t ∧ freed t
          ∧ (tget t.work.siteCounters i).latePlates
              = (if e.late then bump (tget s.work.siteCounters i).latePlates else (tget s.work.siteCounters i).latePlates)
          ∧ ∀ key sep q r, e.key = some key → e.sep = some sep → s.work.findPage key = some q → q.state = .live →
              q.released = some r → e.version = r.version →
              ∃ x progress, t.work.findPage key = some x ∧ progress = (q.site i).progress ||| SepSet.one sep
                ∧ x.site i = { held := if (∀ z ∈ q.colour.seps, SepSet.has progress z = true) then r.version else (q.site i).held
                               progress := progress }
                ∧ (∀ j, j ≠ i → x.site j = q.site j)
                ∧ (s.work.editionState key.title key.edition ≠ some .retiring →
                    ((∀ z ∈ q.colour.seps, SepSet.has progress z = true) → (q.site i).held ≠ r.version →
                      (SiteSet.has r.mask i = false → t.work.out = (s.work.toTitle key.title (.delivered key i r.version)).out)
                      ∧ ∀ y, SiteSet.has r.mask i = true → s.work.editionSite key.title key.edition i = some y →
                        (y.state = .waiting ∨ y.state = .late → 1 ≤ y.pageCount → y.pageCount ≤ y.delivered + 1 →
                          t.work.editionSite key.title key.edition i = some { y with delivered := y.delivered + 1, state := .ready }
                            ∧ t.work.armed key.title key.edition i = false
                            ∧ t.work.out = (((s.work.toTitle key.title (.delivered key i r.version)).toTitle key.title
                                (.ready key.edition i y.lateMark)).toDesk (.ready key.edition i y.lateMark)).out)
                        ∧ ((y.state ≠ .waiting ∧ y.state ≠ .late) ∨ y.pageCount = 0 ∨ y.delivered + 1 < y.pageCount →
                          t.work.editionSite key.title key.edition i = some { y with delivered := y.delivered + 1 }
                            ∧ t.work.out = (s.work.toTitle key.title (.delivered key i r.version)).out))
                    ∧ (((∃ z ∈ q.colour.seps, SepSet.has progress z = false) ∨ (q.site i).held = r.version) →
                        t.work.out = s.work.out ∧ t.work.editions = s.work.editions)))
    ∧ (e.kind = .plate → g.state = .confirming ∨ g.state = .draining ∨ (g.state = .opening ∧ e.acked = s.work.imageBands e) →
        ∀ key sep q, e.key = some key → e.sep = some sep → s.work.findPage key = some q →
          q.state = .killed ∨ (q.state = .live ∧ ∀ r, q.released = some r → e.version ≠ r.version) →
          s.work.editionState key.title key.edition ≠ some .retiring →
          ∃ t, exec (.plateDone i tag) s = .next t ∧ freed t ∧ t.work.pages = s.work.pages
            ∧ t.work.out = ((s.work.toTitle key.title (.strayPlate i key sep e.version)).toDesk
                (.strayPlate i key sep e.version)).out)
    ∧ (e.kind ≠ .plate ∨ g.state = .sending ∨ (g.state = .opening ∧ e.acked ≠ s.work.imageBands e) → failed (.plateDone i tag))
    ∧ (e.kind = .plate → g.state = .aborting → exec (.plateDone i tag) s = .next
        (s.setWork ((s.work.modQual i Qualifier.goodFrame).modEngine i (fun x => { x with strayFrames := bump x.strayFrames }))))
    ∧ (e.kind = .withdraw → g.state = .confirming → ∃ t, exec (.withdrawAck i tag) s = .next t ∧ freed t
        ∧ ∀ key q, e.key = some key → s.work.findPage key = some q →
            ∃ x, t.work.findPage key = some x ∧ x.site i = { held := 0, progress := 0#4 } ∧ ∀ j, j ≠ i → x.site j = q.site j)
    ∧ (e.kind = .withdraw → g.state ≠ .confirming →
        exec (.withdrawAck i tag) s = .next (s.setWork (s.work.modQual i Qualifier.goodFrame)))
    ∧ (e.kind ≠ .withdraw → failed (.withdrawAck i tag))
    ∧ (e.kind = .plate → g.state = .aborting → ∃ t, exec (.abortAck i tag) s = .next t ∧ t.work.transferIdle i
        ∧ (e.state = .aborting → e.cause ≠ some .damaged → freed t)
        ∧ ∀ id sep r other, PoolSound s.work → e.state = .aborting → e.cause = some .damaged → s.work.editionOver e = false →
            e.image = some id → e.sep = some sep → s.work.releasedOf e = some r → r.images.get sep = some other →
            ∃ x ∈ t.work.entries, x.number = e.number ∧ x.kind = .plate ∧ x.acked = 0 ∧ x.waiting = true ∧ x.cause = none
              ∧ x.image = some (if s.work.imageDamaged id = true then other else id)
              ∧ (other = id → s.work.imageDamaged id = true → x.state = .gated ∧ x.gates.resupply = true))
    ∧ (g.state ≠ .aborting ∨ e.kind ≠ .plate → failed (.abortAck i tag))

/-- PLATE_REFUSED: an unknown reason, or an entry that is no PLATE, is a line failure; in ABORTING it is counted stray. EDITION_UNKNOWN, and
a second UNREADABLE, remove the entry with PLATE_REFUSED to the title and to the desk; a first UNREADABLE is counted and the entry begins
again from band 0. TARGET_MISSING clears the site's holding of the slot and gates the slot's waiting plates bound above generation 0; a
plate bound above 0 begins again without being counted, one bound to 0 is counted as for UNREADABLE (that its notice then says
TARGET_MISSING is the model's reading, log 33). An entry that begins again waits with its refusal count, on the other image where its own is
damaged and the released version names another, and with RESUPPLY where it names the same; it is freed where its edition-site is over or its
version no longer released. A plate that takes the TARGET gate so has a TARGET entry in its queue or its want marked. That the reason is the
whole word is the model's choice (log 60). -/
def Obligations.RefusedPlates : Prop :=
  ∀ (i : Site) (tag : Byte) (reason : Word) (e : Entry) (s : State) (g : Engine), g = s.work.engine i →
    let cleared (t : State) : Prop := reason = 1#32 → ∀ k, e.slot = some k → t.work.holding i k = 0
      ∧ ∀ y ∈ t.work.entries, y.kind = .plate → y.site = i → y.slot = some k → 0 < y.generation → y.waiting = true →
        y.gates.target = true
    let gone (t : State) : Prop := ∀ x ∈ t.work.entries, x.number = e.number → x.kind = .target
    let removed (r : RefuseReason) : Prop := ∃ t, exec (.plateRefused i tag reason) s = .next t ∧ t.work.transferIdle i
      ∧ gone t ∧ cleared t
      ∧ ∀ key sep, e.key = some key → e.sep = some sep → ∃ w : Work, t.work.out =
          ((w.toTitle key.title (.plateRefused i key sep e.version r)).toDesk (.plateRefused i key sep e.version r)).out
    let again (refusals : Nat) : Prop := ∃ t, exec (.plateRefused i tag reason) s = .next t ∧ t.work.transferIdle i
      ∧ (∀ x ∈ t.work.entries, x.number = e.number → x.kind = .target ∨ (x.refusals = refusals ∧ x.acked = 0 ∧ x.waiting = true))
      ∧ cleared t
      ∧ (s.work.editionOver e = true ∨ s.work.releasedOf e = none → gone t)
      ∧ ∀ r id sep other, s.work.editionOver e = false → s.work.releasedOf e = some r → e.image = some id → e.sep = some sep →
          (s.work.imageDamaged id = true → r.images.get sep = some other) →
          ∃ x ∈ t.work.entries, x.number = e.number ∧ x.kind = .plate ∧ x.refusals = refusals ∧ x.acked = 0 ∧ x.waiting = true
            ∧ x.cause = none ∧ x.site = i ∧ x.key = e.key ∧ x.version = e.version ∧ x.seq = e.seq
            ∧ x.image = some (if s.work.imageDamaged id = true then other else id)
            ∧ (s.work.imageDamaged id = true → other = id → x.gates.resupply = true)
            ∧ (x.state = .queued ↔ x.gates.isEmpty = true)
            ∧ ∀ k, e.slot = some k → x.gates.target = true →
                t.work.hasTarget i k = true ∨ (i, k) ∈ t.work.wants
    PoolSound s.work → (s.work.qual i).inService = true → g.state ≠ .idle → g.tag = tag.toNat → s.work.current i = some e →
    (e.kind ≠ .plate ∨ reason = 0#32 ∨ 3 < reason.toNat → ∃ (t : State) (w : Work), exec (.plateRefused i tag reason) s = .next t
        ∧ s.work.lineFailed t.work i ∧ t.work.out = (w.toDesk (.lineTraining i .protocol)).out)
    ∧ (e.kind = .plate → 1 ≤ reason.toNat → reason.toNat ≤ 3 → g.state = .aborting → exec (.plateRefused i tag reason) s = .next
        (s.setWork ((s.work.modQual i Qualifier.goodFrame).modEngine i (fun x => { x with strayFrames := bump x.strayFrames }))))
    ∧ (e.kind = .plate → g.state ≠ .aborting →
        (reason = 3#32 → removed .editionUnknown)
        ∧ (reason = 2#32 → e.refusals ≠ 0 → removed .unreadable)
        ∧ (reason = 2#32 → e.refusals = 0 → again 1)
        ∧ (reason = 1#32 → 0 < e.generation → again e.refusals)
        ∧ (reason = 1#32 → e.generation = 0 → e.refusals = 0 → again 1)
        ∧ (reason = 1#32 → e.generation = 0 → e.refusals ≠ 0 → removed .targetMissing))

/-- TARGET_HELD: a slot above 31 is a line failure; generation 0, or one above the slot's, is only counted; otherwise the site's holding is
the greater of the two generations. A raised holding removes the TARGET gate of the plates it satisfies and resets the colour check record,
ending a hold set at a lower generation; the transfer of a TARGET entry of that slot and generation in CONFIRMING is complete. The largest
value of the stray target counter is the model's reading (log 21). -/
def Obligations.TargetHeldRaisesTheHolding : Prop :=
  ∀ (i : Site) (slot : Byte) (gen : BitVec 16) (s : State), (s.work.qual i).inService = true →
    (32 ≤ slot.toNat → ∃ (t : State) (w : Work), exec (.targetHeld i slot gen) s = .next t ∧ s.work.lineFailed t.work i
      ∧ t.work.out = (w.toDesk (.lineTraining i .protocol)).out)
    ∧ ∀ k, slotOf slot = some k →
      (gen.toNat = 0 ∨ (s.work.slot k).generation < gen.toNat → exec (.targetHeld i slot gen) s = .next
        (s.setWork ((s.work.modQual i Qualifier.goodFrame).modSiteCounters i (fun x => { x with strayTargets := bump x.strayTargets }))))
      ∧ (gen.toNat ≠ 0 → gen.toNat ≤ (s.work.slot k).generation → ∃ t, exec (.targetHeld i slot gen) s = .next t
          ∧ t.work.holding i k = max (s.work.holding i k) gen.toNat
          ∧ (s.work.holding i k < gen.toNat → ∀ x ∈ t.work.entries, x.kind = .plate → x.waiting = true → x.site = i →
              x.slot = some k → x.generation ≤ gen.toNat → x.gates.target = false)
          ∧ (s.work.holding i k < gen.toNat →
              (s.work.check i k).hold = false ∨ (s.work.check i k).holdGeneration < gen.toNat → t.work.check i k = .reset)
          ∧ (gen.toNat ≤ s.work.holding i k ∨ ((s.work.check i k).hold = true ∧ gen.toNat ≤ (s.work.check i k).holdGeneration) →
              t.work.check i k = s.work.check i k)
          ∧ (∀ e, PoolSound s.work → s.work.current i = some e → e.kind = .target → e.slot = some k → e.generation = gen.toNat →
              e.state ≠ .queued → (s.work.engine i).state = .confirming → t.work.transferIdle i))

/-- PRESS_RUN of an edition-site that is WAITING, READY or LATE makes it RUNNING, disarms its cut-off and tells the title and then the desk;
of one RUNNING or CLOSED it changes nothing; of no title, no edition-site, or an edition RETIRING it is counted as stray (the counter's
largest value is the model's reading, log 21). -/
def Obligations.PressRunsAreNoted : Prop :=
  ∀ (i : Site) (title edition : Byte) (s : State), (s.work.qual i).inService = true →
    let stray : Prop := exec (.pressRun i title edition) s = .next
      (s.setWork ((s.work.modQual i Qualifier.goodFrame).modSiteCounters i
        (fun x => { x with strayPressRuns := bump x.strayPressRuns })))
    (titleOf title = none → stray)
    ∧ ∀ u, titleOf title = some u →
      (s.work.editionState u edition.toNat = some .retiring ∨ s.work.editionSite u edition.toNat i = none → stray)
      ∧ ∀ x, s.work.editionState u edition.toNat ≠ some .retiring → s.work.editionSite u edition.toNat i = some x →
        (x.state = .waiting ∨ x.state = .ready ∨ x.state = .late → ∃ t, exec (.pressRun i title edition) s = .next t
          ∧ t.work.editionSite u edition.toNat i = some { x with state := .running } ∧ t.work.armed u edition.toNat i = false
          ∧ t.work.out = ((s.work.toTitle u (.pressRun edition.toNat i x.lateMark)).toDesk
              (.pressRun edition.toNat i x.lateMark)).out)
        ∧ (x.state = .running ∨ x.state = .closed →
            exec (.pressRun i title edition) s = .next (s.setWork (s.work.modQual i Qualifier.goodFrame)))

/-- MEASURE: a slot above 31, a length that does not agree with the count, a reading above 4000 or, of a current report, more readings than
the slot has patches is a line failure; a report of a generation the site does not hold, or that is not the slot's, is only counted. Any
other updates the colour check record by its numeric deviations, and sets the colour hold with the flag, the gates and the alert when it is
OUT and the count has reached the limit. That the counter of stale reports is 32 bits wide is the model's reading (log 21). -/
def Obligations.MeasurementsAreJudged : Prop :=
  ∀ (i : Site) (slot count : Byte) (gen : BitVec 16) (halves : List (BitVec 16)) (s : State) (rs : List (Option Nat)),
    (s.work.qual i).inService = true → rs = readingsOf count.toNat halves →
    let failed : Prop := ∃ (t : State) (w : Work), exec (.measure i slot count gen halves) s = .next t ∧ s.work.lineFailed t.work i
      ∧ t.work.out = (w.toDesk (.lineTraining i .protocol)).out
    (32 ≤ slot.toNat → failed)
    ∧ ∀ k, slotOf slot = some k →
      (halves.length ≠ 2 * ((count.toNat + 1) / 2) → failed)
      ∧ (∀ n, some n ∈ rs → 4000 < n → failed)
      ∧ (halves.length = 2 * ((count.toNat + 1) / 2) → (∀ n, some n ∈ rs → n ≤ 4000) →
          (s.work.holding i k = 0 ∨ s.work.holding i k ≠ gen.toNat ∨ gen.toNat ≠ (s.work.slot k).generation →
            exec (.measure i slot count gen halves) s = .next (s.setWork ((s.work.modQual i Qualifier.goodFrame).modSiteCounters i
              (fun x => { x with staleMeasures := bump x.staleMeasures }))))
          ∧ (s.work.holding i k ≠ 0 → s.work.holding i k = gen.toNat → gen.toNat = (s.work.slot k).generation →
              ((s.work.slot k).patches.length < count.toNat → failed)
              ∧ (count.toNat ≤ (s.work.slot k).patches.length → ∀ ds n, ds = deviations rs (s.work.slot k).patches →
                  n = (if ∃ d ∈ ds, d.2 < d.1 then min 7 ((s.work.check i k).outCount + 1)
                    else if ds = [] then (s.work.check i k).outCount else 0) →
                  ∃ t r, exec (.measure i slot count gen halves) s = .next t ∧ r.outCount = n
                    ∧ r.readings = min 4294967295 ((s.work.check i k).readings + ds.length)
                    ∧ r.sumSquares = ds.foldl (fun a d => min 281474976710655 (a + d.1 * d.1)) (s.work.check i k).sumSquares
                    ∧ (ds = [] → r.lastWorst = none)
                    ∧ (∀ d ∈ ds, ∃ m, r.lastWorst = some m ∧ d.1 ≤ m) ∧ (∀ m, r.lastWorst = some m → ∃ d ∈ ds, d.1 = m)
                    ∧ r.sessionWorst = worse (s.work.check i k).sessionWorst r.lastWorst
                    ∧ r.hold = (s.work.check i k).hold ∧ r.holdGeneration = (s.work.check i k).holdGeneration
                    ∧ ((∃ d ∈ ds, d.2 < d.1) → cfg s.config .outLimit ≤ n → (s.work.check i k).hold = false →
                        t.work.check i k = { r with hold := true, holdGeneration := s.work.holding i k }
                          ∧ t.work.attention.colourHold = true
                          ∧ t.work.out = (s.work.toDesk (.colourHold i k (s.work.holding i k) n r.lastWorst)).out
                          ∧ ∀ e ∈ t.work.entries, e.kind = .plate → e.waiting = true → e.site = i → e.slot = some k →
                              e.gates.colour = true ∧ e.state = .gated)
                    ∧ ((∀ d ∈ ds, d.1 ≤ d.2) ∨ n < cfg s.config .outLimit ∨ (s.work.check i k).hold = true →
                        t.work.check i k = r ∧ t.work.out = s.work.out ∧ t.work.entries = s.work.entries))))

/-- Line failures and the restart of a site. A bad frame that brings the window's count to the threshold, lost framing and a frame that is
not inbound each fail the line with their cause: the machine carries nothing, the failure is counted, the entry is returned or freed, and
the line trains; below the threshold a bad frame is only counted. Words that make no bad frame, and positions that lose no framing, change
nothing, nor does a frame that is inbound by its type and length (the model's choice, log 35); a frame whose header length is above 61,442
is a bad frame. A SITE_RESTART fails the line, empties the site's queue, holdings, colour check records and what every page held there,
alerts the desk, and has every LIVE page whose released mask names the site at an edition-site not CLOSED in the backlog for it: as RESEED
of the site alone where it had no item, and joined to the RESEED or RELEASE item it had; a KILLED page's WITHDRAW item loses the site. -/
def Obligations.LineFailuresAndRestarts : Prop :=
  ∀ (i : Site) (s : State), (s.work.qual i).inService = true →
    let failed (c : Instr) (cause : TrainingCause) (holds : State → Prop) : Prop := ∃ (t : State) (w : Work), exec c s = .next t
      ∧ s.work.lineFailed t.work i ∧ t.work.out = (w.toDesk (.lineTraining i cause)).out ∧ holds t
      ∧ ∀ e, s.work.current i = some e → ∀ x ∈ t.work.entries, x.number = e.number → x.kind = .target ∨ x.waiting = true
    let onlyCounted (c : Instr) : Prop := exec c s = .next { s with work := { s.work with
      quals := tput s.work.quals i { s.work.qual i with
        windowFrames := if (s.work.qual i).windowFrames + 1 = 256 then 0 else (s.work.qual i).windowFrames + 1
        windowBad := if (s.work.qual i).windowFrames + 1 = 256 then 0 else (s.work.qual i).windowBad + 1
        counters := { (s.work.qual i).counters with badFrames := bump (s.work.qual i).counters.badFrames } } } }
    let bad (c : Instr) : Prop :=
      (cfg s.config .frameThreshold ≤ (s.work.qual i).windowBad + 1 → failed c .frameErrors
        (fun t => (t.work.qual i).counters.badFrames = bump (s.work.qual i).counters.badFrames))
      ∧ ((s.work.qual i).windowBad + 1 < cfg s.config .frameThreshold → onlyCounted c)
    (∀ words, (frameBad words = true → bad (.badFrame { line := i, words := words }))
      ∧ (frameBad words = false → exec (.badFrame { line := i, words := words }) s = .next s))
    ∧ (∀ ps : List (Option Word),
        (ps.length = 32 → (∀ p ∈ ps, p ≠ some 0x0F0F0F0F#32 ∧ p ≠ some 0xB4E1D22D#32) →
          failed (.framingLoss { line := i, positions := ps }) .framing
          (fun t => (t.work.qual i).counters.lockLosses = bump (s.work.qual i).counters.lockLosses))
        ∧ (ps.length ≠ 32 ∨ some 0x0F0F0F0F#32 ∈ ps ∨ some 0xB4E1D22D#32 ∈ ps →
            exec (.framingLoss { line := i, positions := ps }) s = .next s))
    ∧ (∀ (frameType : Byte) (words : BitVec 16),
        (61442 < words.toNat → bad (.frameNotInbound i frameType words))
        ∧ (words.toNat ≤ 61442 → inboundLengthOk frameType words.toNat = false →
            failed (.frameNotInbound i frameType words) .protocol (fun _ => True))
        ∧ (words.toNat ≤ 61442 → inboundLengthOk frameType words.toNat = true →
            exec (.frameNotInbound i frameType words) s = .next s))
    ∧ ∃ (t : State) (w : Work), exec (.siteRestart i) s = .next t ∧ s.work.lineFailed t.work i
        ∧ (∀ e ∈ t.work.entries, e.site ≠ i) ∧ (∀ k, t.work.holding i k = 0 ∧ t.work.check i k = .reset)
        ∧ (∀ q ∈ t.work.pages, q.site i = { held := 0, progress := 0#4 }) ∧ t.work = w.toDesk (.siteRestart i)
        ∧ (PagesSound s.work → BacklogSound s.work → ∀ q ∈ s.work.pages,
            (q.state = .live → SiteSet.has q.oldMask i = true → s.work.siteClosed q.key.title q.key.edition i = false →
              (s.work.findItem q.key = none → t.work.findItem q.key = some
                { key := q.key, kind := .reseed, sites := SiteSet.one i, carried := 0#8 })
              ∧ (∀ it, s.work.findItem q.key = some it → it.kind = .reseed →
                  t.work.findItem q.key = some { it with sites := it.sites ||| SiteSet.one i })
              ∧ (∀ it, s.work.findItem q.key = some it → it.kind = .release → ∃ x, t.work.findItem q.key = some x
                  ∧ x.kind = .release ∧ x.carried = it.carried ||| SiteSet.one i ∧ SiteSet.has x.sites i = true))
            ∧ (q.state = .killed → ∀ x, t.work.findItem q.key = some x → SiteSet.has x.sites i = false)
            ∧ (q.state = .opened ∨ (q.state = .live ∧ (SiteSet.has q.oldMask i = false
                  ∨ s.work.siteClosed q.key.title q.key.edition i = true)) →
                s.work.editionState q.key.title q.key.edition ≠ some .retiring →
                t.work.findItem q.key = s.work.findItem q.key))

/-- The expiries of the transfer timers. The third without an advance is a line failure; before it, T_ack sends PLATE_OPEN again in OPENING
and reads again from the acknowledged band in SENDING and DRAINING, and T_conf sends the opening frame again, a PLATE going back to OPENING;
in ABORTING the expiry of T_ack ends the abort. A timer that is not running does nothing. That an expiry is a command and one of a stopped
timer nothing, that the frames waiting stay at a go-back, and that the reads asked before it are kept, their payloads to be dropped and
DAMAGED still to be acted on, is the model's choice or reading (log 6, log 35, log 13, log 12, log 48). -/
def Obligations.TransferTimersExpire : Prop :=
  ∀ (i : Site) (s : State) (g : Engine), g = s.work.engine i →
    let failed (c : Instr) : Prop := ∃ (t : State) (w : Work), exec c s = .next t ∧ s.work.lineFailed t.work i
      ∧ t.work.out = (w.toDesk (.lineTraining i .expiry)).out
    let back (r : BandRead) : BandRead := { r with use := if r.use = .live then .wentBack else r.use }
    (g.tAck = none ∨ s.work.current i = none → exec (.tAckExpiry i) s = .next s)
    ∧ (g.tConf = none ∨ s.work.current i = none → exec (.tConfExpiry i) s = .next s)
    ∧ ∀ e, s.work.current i = some e →
      (g.tAck.isSome = true →
        (g.state = .aborting → ∃ t, exec (.tAckExpiry i) s = .next t ∧ t.work.transferIdle i)
        ∧ (g.state ≠ .aborting → 3 ≤ g.expiry + 1 → (s.work.qual i).inService = true → failed (.tAckExpiry i))
        ∧ (g.expiry + 1 < 3 → g.state = .opening → ∃ t, exec (.tAckExpiry i) s = .next t
            ∧ t.work.engine i = { g with
                expiry := g.expiry + 1, tAck := some (cfg s.config .tAck), tx := g.tx ++ s.work.firstFrame g.tag e })
        ∧ (g.expiry + 1 < 3 → g.state = .sending ∨ g.state = .draining → ∃ t, exec (.tAckExpiry i) s = .next t
            ∧ (t.work.engine i).expiry = g.expiry + 1 ∧ (t.work.engine i).tAck = some (cfg s.config .tAck)
            ∧ (t.work.engine i).tx = g.tx
            ∧ (g.readOutstanding ≠ none → (t.work.engine i).state = .sending ∧ (t.work.engine i).nextBand = e.acked
                ∧ (t.work.engine i).reads = g.reads.map back)
            ∧ (∀ image, g.readOutstanding = none → e.kind = .plate → e.image = some image → e.acked < s.work.imageBands e →
                0 < s.work.window s.config i →
                (t.work.engine i).state = .sending ∧ (t.work.engine i).nextBand = e.acked + 1
                  ∧ (t.work.engine i).reads
                    = g.reads.map back ++ [{ image := image, band := e.acked, use := .live }])))
      ∧ (g.tConf.isSome = true →
          (3 ≤ g.expiry + 1 → (s.work.qual i).inService = true → failed (.tConfExpiry i))
          ∧ (g.expiry + 1 < 3 → ∃ t, exec (.tConfExpiry i) s = .next t
              ∧ t.work.engine i = { g with
                  expiry := g.expiry + 1, tConf := none, tx := g.tx ++ s.work.firstFrame g.tag e,
                  state := if e.kind = .plate then .opening else g.state }
              ∧ (e.kind = .plate → ∀ x ∈ t.work.entries, x.number = e.number → x.state = .active)))

/-! ### Training -/

/-- A word period of a training line whose attempt has not ended: the transmitter sends the next word of the TRAIN frame (sync, header, 256
pattern words, CRC word), or waits while a frame begun before is still in transmission, and the checker compares the word received with its
generator: 64 matches in a row lead from SEARCH to LOCKED and 1,024 more to MEASURE, a mismatch leads back and reloads the generator from
the word received, and in MEASURE words and errors are counted. The output stage, the bits that load the checker, the gaps in SEARCH and
LOCKED, the latch of the word sent, the waiting of the transmitter, and that a word period outside training or after the attempt's end
changes nothing are the model's choices or readings (log 16, log 1, log 47, log 35, log 17). -/
def Obligations.TrainingWordsAreChecked : Prop :=
  ∀ (i : Site) (received : Option Word) (s : State) (q : Qualifier) (agrees : Prop), q = s.work.qual i →
    (agrees ↔ ∃ g w, q.gen = some g ∧ received = some w ∧ prbsWord g = w) →
    (q.level ≠ .training ∨ attemptOver s.config q = true → exec (.trainWordPeriod i received) s = .next s)
    ∧ (q.level = .training → attemptOver s.config q = false → ∃ t x, exec (.trainWordPeriod i received) s = .next t
        ∧ x = t.work.qual i ∧ x.level = .training ∧ x.attempt = q.attempt
        ∧ ((s.work.engine i).tx ≠ [] → t.work.engines = s.work.engines ∧ x.txPos = q.txPos ∧ x.txGen = q.txGen ∧ x.txCrc = q.txCrc)
        ∧ ((s.work.engine i).tx = [] →
          (q.txPos = 0 → (t.work.engine i).lineOut = [0xB4E1D22D#32] ∧ x.txPos = 1 ∧ x.txCrc = 0xFFFF#16)
          ∧ (q.txPos = 1 → (t.work.engine i).lineOut = [0x06000100#32] ∧ x.txPos = 2 ∧ x.txCrc = crc16Word q.txCrc 0x06000100#32)
          ∧ (2 ≤ q.txPos → q.txPos ≤ 257 → (t.work.engine i).lineOut = [prbsWord q.txGen] ∧ x.txPos = q.txPos + 1
              ∧ x.txGen = prbsRun 32 q.txGen ∧ x.txCrc = crc16Word q.txCrc (prbsWord q.txGen))
          ∧ (258 ≤ q.txPos → (t.work.engine i).lineOut = [q.txCrc.setWidth 32] ∧ x.txPos = 0))
        ∧ (∀ w, received = some w → x.lastWord = some w
            ∧ x.identical = if q.lastWord = some w then min 256 (q.identical + 1) else 0)
        ∧ (received = none → x.identical = 0)
        ∧ (q.checker = .search → x.periods = q.periods + 1
            ∧ (agrees → q.matchRun + 1 ≠ 64 → x.checker = .search ∧ x.matchRun = q.matchRun + 1)
            ∧ (agrees → q.matchRun + 1 = 64 → x.checker = .locked ∧ x.confirm = 0)
            ∧ (agrees → x.gen = q.gen.map (prbsRun 32))
            ∧ (¬agrees → x.checker = .search ∧ x.matchRun = 0)
            ∧ (¬agrees → ∀ w, received = some w → x.gen = some (prbsRun 31 (w.setWidth 31)))
            ∧ (¬agrees → received = none → x.gen = q.gen))
        ∧ (q.checker = .locked → x.periods = q.periods + 1
            ∧ (agrees → x.gen = q.gen.map (prbsRun 32))
            ∧ (¬agrees → ∀ w, received = some w → x.gen = some (prbsRun 31 (w.setWidth 31)))
            ∧ (¬agrees → received = none → x.gen = q.gen)
            ∧ (agrees → q.confirm + 1 ≠ 1024 → x.checker = .locked ∧ x.confirm = q.confirm + 1)
            ∧ (agrees → q.confirm + 1 = 1024 → x.checker = .measure
                ∧ x.counters = { q.counters with words := 0, errors := cfg s.config .preload })
            ∧ (¬agrees → x.checker = .search ∧ x.matchRun = 0
                ∧ x.counters = { q.counters with lockLosses := bump q.counters.lockLosses }))
        ∧ (q.checker = .measure → x.checker = .measure ∧ x.gen = q.gen.map (prbsRun 32)
            ∧ x.counters.words = min 16777216 (q.counters.words + 1)
            ∧ (agrees → x.counters.errors = min 16777471 q.counters.errors)
            ∧ (¬agrees → x.counters.errors = min 16777471 (q.counters.errors + 1))))

/-- The verdicts of a training attempt: a window whose errors (less the preload) are at most T_up puts the line UP, at most T_deg DEGRADED,
each with its alert; more errors, or 65,536 word periods without MEASURE, fail the attempt, and the next begins, or after the fourth the
line is DOWN with T_retry started; 256 identical words put it DOWN at once. DOWN raises the LINE_DOWN attention flag with its alert. That
each of the three ends is a command, which changes nothing without its condition, is the model's choice (log 35, log 17); that the receiver
begins anew with the in-service watch is its reading (log 49), and that the TRAIN frame under way is cut off and a verdict without a
measurement has the error count 0 its choice (log 51, log 53), as is the empty generator of the checker at the next attempt (log 16). -/
def Obligations.TrainingVerdicts : Prop :=
  ∀ (i : Site) (s : State) (q : Qualifier) (n : Nat), q = s.work.qual i → n = q.counters.errors - cfg s.config .preload →
    let lineDown (v : LastVerdict) : Work :=
      (s.work.setQual i { q with verdict := v, checker := .off, level := .down, tRetry := some (cfg s.config .tRetry) }).toDesk
        (.lineDown i v)
    let down (c : Instr) (v : LastVerdict) : Prop := exec c s
      = .next { s with work := { lineDown v with attention := { (lineDown v).attention with lineDown := true } } }
    let again (c : Instr) (v : LastVerdict) : Prop := ∃ t x, exec c s = .next t ∧ x = t.work.qual i ∧ x.level = .training
      ∧ x.attempt = q.attempt + 1 ∧ x.verdict = v ∧ x.checker = .search ∧ x.periods = 0 ∧ x.matchRun = 0 ∧ x.confirm = 0
      ∧ x.identical = 0 ∧ x.gen = none ∧ x.txGen = 0x7FFFFFFF#31 ∧ x.txPos = 0
      ∧ x.counters = { q.counters with attempts := bump q.counters.attempts } ∧ t.work.out = s.work.out
    let judge (c : Instr) (v : LastVerdict) : Prop := (q.attempt < 4 → again c v) ∧ (4 ≤ q.attempt → down c v)
    let inService (degraded : Bool) (v : Verdict) : Work :=
      (s.work.setQual i { q with
        verdict := { verdict := v, errors := n }, checker := .off, windowFrames := 0, windowBad := 0,
        receiver := { inFrame := false, frame := [], lost := [] }
        level := if degraded then .degraded else .up }).toDesk (.lineInService i degraded q.attempt n)
    let passed (degraded : Bool) (v : Verdict) : Prop := exec (.measureWindowEnd i) s
      = .next { s with work := inService degraded v }
    (q.level = .training → q.checker = .search ∨ q.checker = .locked → 65536 ≤ q.periods →
        judge (.attemptNoLock i) { verdict := .noLock, errors := 0 })
    ∧ (q.level ≠ .training ∨ q.checker = .off ∨ q.checker = .measure ∨ q.periods < 65536 → exec (.attemptNoLock i) s = .next s)
    ∧ (q.level = .training → q.checker ≠ .off → 256 ≤ q.identical → down (.attemptStuck i) { verdict := .stuck, errors := 0 })
    ∧ (q.level ≠ .training ∨ q.checker = .off ∨ q.identical < 256 → exec (.attemptStuck i) s = .next s)
    ∧ (q.level = .training → q.checker = .measure →
        (cfg s.config .limitSelection = 0 ∧ cfg s.config .wordLimit ≤ q.counters.words)
          ∨ (cfg s.config .limitSelection ≠ 0 ∧ (cfg s.config .errorLimit ≤ n ∨ 16777216 ≤ q.counters.words)) →
        (n ≤ cfg s.config .tUp → passed false .up)
        ∧ (cfg s.config .tUp < n → n ≤ cfg s.config .tDeg → passed true .degraded)
        ∧ (cfg s.config .tUp < n → cfg s.config .tDeg < n → judge (.measureWindowEnd i) { verdict := .errors, errors := n }))
    ∧ (q.level ≠ .training ∨ q.checker ≠ .measure
        ∨ (cfg s.config .limitSelection = 0 ∧ q.counters.words < cfg s.config .wordLimit)
        ∨ (cfg s.config .limitSelection ≠ 0 ∧ n < cfg s.config .errorLimit ∧ q.counters.words < 16777216) →
        exec (.measureWindowEnd i) s = .next s)
end

