-- ==== Sys2Proof/Laws/Memory.lean ====
section
/-! SUPPORT. The DRAM: a block written reads back, every other byte reads as before, and the canonical form is kept. -/

namespace Sys2Proof.Machine

set_option Elab.async false

theorem Memory.wfFrom_mono {lo lo' : Nat} {m : List Host.Cell} (h : lo' ≤ lo) (hw : Memory.wfFrom lo m = true) :
    Memory.wfFrom lo' m = true := by
  cases m with
  | nil => rfl
  | cons c rest =>
    obtain ⟨k, v⟩ := c
    simp only [Memory.wfFrom, Bool.and_eq_true, Nat.ble_eq] at hw ⊢
    exact ⟨⟨Nat.le_trans h hw.1.1, hw.1.2⟩, hw.2⟩

/-- A canonical list, cut below an address, followed by one canonical from that address on. -/
theorem Memory.wfFrom_append {lo a : Nat} {m t : List Host.Cell} (hm : Memory.wfFrom lo m = true) (ht : Memory.wfFrom a t = true)
    (hla : lo ≤ a) (hb : ∀ c ∈ m, c.1 < a) : Memory.wfFrom lo (m ++ t) = true := by
  induction m generalizing lo with
  | nil => exact Memory.wfFrom_mono hla ht
  | cons c rest ih =>
    obtain ⟨k, v⟩ := c
    simp only [Memory.wfFrom, List.cons_append, Bool.and_eq_true, Nat.ble_eq] at hm ⊢
    exact ⟨hm.1, ih hm.2 (hb (k, v) List.mem_cons_self) fun d hd => hb d (List.mem_cons_of_mem _ hd)⟩

/-- A part of a canonical list is canonical from any address its own addresses are at or above. -/
theorem Memory.wfFrom_filter {lo : Nat} {m : List Host.Cell} (p : Host.Cell → Bool) (hm : Memory.wfFrom lo m = true) :
    Memory.wfFrom lo (m.filter p) = true := by
  induction m generalizing lo with
  | nil => rfl
  | cons c rest ih =>
    obtain ⟨k, v⟩ := c
    simp only [Memory.wfFrom, Bool.and_eq_true, Nat.ble_eq] at hm
    by_cases hp : p (k, v) = true
    · simp only [List.filter_cons, hp, if_true, Memory.wfFrom, Bool.and_eq_true, Nat.ble_eq]
      exact ⟨hm.1, ih hm.2⟩
    · simp only [List.filter_cons, hp]
      exact Memory.wfFrom_mono (Nat.le_succ_of_le hm.1.1) (ih hm.2)

theorem Memory.wfFrom_raise {lo a : Nat} {m : List Host.Cell} (hm : Memory.wfFrom lo m = true) (hb : ∀ c ∈ m, a ≤ c.1) :
    Memory.wfFrom a m = true := by
  cases m with
  | nil => rfl
  | cons c rest =>
    obtain ⟨k, v⟩ := c
    simp only [Memory.wfFrom, Bool.and_eq_true, Nat.ble_eq] at hm ⊢
    exact ⟨⟨hb (k, v) List.mem_cons_self, hm.1.2⟩, hm.2⟩

theorem blockCells_bounds (a : Nat) (bs : List Byte) : ∀ c ∈ blockCells a bs, a ≤ c.1 ∧ c.1 < a + bs.length := by
  induction bs generalizing a with
  | nil => simp [blockCells]
  | cons b bs ih =>
    intro c hc
    simp only [blockCells] at hc
    split at hc
    · have := ih (a + 1) c hc
      simp only [List.length_cons]; omega
    · rcases List.mem_cons.mp hc with rfl | hc
      · simp
      · have := ih (a + 1) c hc
        simp only [List.length_cons]; omega

theorem blockCells_wf (a : Nat) (bs : List Byte) : Memory.wfFrom a (blockCells a bs) = true := by
  induction bs generalizing a with
  | nil => rfl
  | cons b bs ih =>
    simp only [blockCells]
    split
    · exact Memory.wfFrom_mono (Nat.le_succ a) (ih (a + 1))
    · rename_i hb
      simp only [Memory.wfFrom, Bool.and_eq_true, Nat.ble_eq]
      exact ⟨⟨Nat.le_refl a, by simpa using hb⟩, ih (a + 1)⟩

/-- Writing a block keeps the canonical form. -/
theorem writeBlock_wf (m : List Host.Cell) (a : Nat) (bs : List Byte) (h : Memory.wf m = true) : Memory.wf (writeBlock m a bs) = true := by
  unfold writeBlock
  apply Memory.wfFrom_append (a := a) (Memory.wfFrom_filter _ h) _ (Nat.zero_le a)
  · intro c hc
    simpa [Nat.blt_eq] using (List.mem_filter.mp hc).2
  · apply Memory.wfFrom_append (a := a + bs.length) (blockCells_wf a bs) _ (Nat.le_add_right _ _) fun c hc => (blockCells_bounds a bs c hc).2
    apply Memory.wfFrom_raise (Memory.wfFrom_filter _ h)
    intro c hc
    simpa [Nat.ble_eq] using (List.mem_filter.mp hc).2

/-! ### Reading -/

theorem readByte_append_right {m t : List Host.Cell} {a : Nat} (h : ∀ c ∈ m, c.1 ≠ a) : readByte (m ++ t) a = readByte t a := by
  induction m with
  | nil => rfl
  | cons c rest ih =>
    obtain ⟨k, v⟩ := c
    simp only [List.cons_append, readByte]
    rw [if_neg (h (k, v) List.mem_cons_self)]
    exact ih fun d hd => h d (List.mem_cons_of_mem _ hd)

theorem readByte_append_left {m t : List Host.Cell} {a : Nat} (h : ∀ c ∈ t, c.1 ≠ a) : readByte (m ++ t) a = readByte m a := by
  induction m with
  | nil =>
    rw [List.nil_append]
    have := readByte_append_right (t := []) h
    simpa using this
  | cons c rest ih =>
    obtain ⟨k, v⟩ := c
    simp only [List.cons_append, readByte, ih]

theorem readByte_filter {m : List Host.Cell} {p : Host.Cell → Bool} {a : Nat} (h : ∀ v, p (a, v) = true) :
    readByte (m.filter p) a = readByte m a := by
  induction m with
  | nil => rfl
  | cons c rest ih =>
    obtain ⟨k, v⟩ := c
    by_cases hp : p (k, v) = true
    · simp only [List.filter_cons, hp, if_true, readByte, ih]
    · have hk : k ≠ a := fun e => hp (e ▸ h v)
      simp only [List.filter_cons, hp, readByte, if_neg hk]
      exact ih

theorem readByte_blockCells (a : Nat) (bs : List Byte) (k : Nat) (hk : k < bs.length) : readByte (blockCells a bs) (a + k) = bs.getD k 0#8 := by
  induction bs generalizing a k with
  | nil => simp at hk
  | cons b bs ih =>
    have tail (j : Nat) (hj : j < bs.length) : readByte (blockCells (a + 1) bs) (a + (j + 1)) = bs.getD j 0#8 := by
      have := ih (a + 1) j hj
      rwa [show a + 1 + j = a + (j + 1) by omega] at this
    simp only [blockCells]
    split
    · rename_i hb
      cases k with
      | zero =>
        have := readByte_append_right (m := blockCells (a + 1) bs) (t := []) (a := a + 0)
          fun c hc => by have := blockCells_bounds _ _ c hc; omega
        simpa [readByte, hb, unwrittenByte] using this
      | succ j => simpa using tail j (by simpa using hk)
    · cases k with
      | zero => simp [readByte]
      | succ j =>
        rw [readByte, if_neg (by omega)]
        simpa using tail j (by simpa using hk)

/-- Outside the block a write leaves every byte. -/
theorem readByte_writeBlock_outside (m : List Host.Cell) (a : Nat) (bs : List Byte) (x : Nat) (h : x < a ∨ a + bs.length ≤ x) :
    readByte (writeBlock m a bs) x = readByte m x := by
  unfold writeBlock
  rcases h with h | h
  · rw [readByte_append_left, readByte_filter]
    · intro v; simpa [Nat.blt_eq] using h
    · intro c hc
      rcases List.mem_append.mp hc with hc | hc
      · have := blockCells_bounds _ _ c hc; omega
      · have : a + bs.length ≤ c.1 := by simpa [Nat.ble_eq] using (List.mem_filter.mp hc).2
        omega
  · rw [readByte_append_right, readByte_append_right, readByte_filter]
    · intro v; simpa [Nat.ble_eq] using h
    · intro c hc
      have := blockCells_bounds _ _ c hc; omega
    · intro c hc
      have : c.1 < a := by simpa [Nat.blt_eq] using (List.mem_filter.mp hc).2
      omega

/-- Inside the block a write reads back. -/
theorem readByte_writeBlock_inside (m : List Host.Cell) (a : Nat) (bs : List Byte) (k : Nat) (hk : k < bs.length) :
    readByte (writeBlock m a bs) (a + k) = bs.getD k 0#8 := by
  unfold writeBlock
  rw [readByte_append_right, readByte_append_left, readByte_blockCells a bs k hk]
  · intro c hc
    have : a + bs.length ≤ c.1 := by simpa [Nat.ble_eq] using (List.mem_filter.mp hc).2
    omega
  · intro c hc
    have : c.1 < a := by simpa [Nat.blt_eq] using (List.mem_filter.mp hc).2
    omega

/-- Reset memory lists nothing. -/
theorem reset_dram_wf : Memory.wf State.reset.dram = true := rfl

end Sys2Proof.Machine
end

