-- ==== Sys2Proof/WellFormed.lean ====
section
/-! DEFINITION. Which terms of Instr a sender can form: the limits of R182, R188 and R189 that the operand types do not carry. -/

namespace Sys2Proof

/-- A command a sender can form. -/
def Instr.wellFormed : Instr → Bool
  | .unknownCommand code => !(Nat.ble 1 code.toNat && Nat.ble code.toNat 4)
  | .configWrite addr _ => addr != 0x011#12 && addr != 0x022#12
  | .editionDeclare _ _ sites => Nat.ble sites.length 8
  | .band _ _ payload => Nat.ble payload.length 262144
  | .targetLoad _ msg => Nat.ble msg.records.length 144
  | .measure _ _ _ _ halves => halves.length % 2 == 0
  | .frameNotInbound _ frameType words => !inboundLengthOk frameType words.toNat && Nat.ble words.toNat frameLimit
  | .badFrame frame => Machine.frameBad frame.words
  | .framingLoss gap => Machine.framingLost gap.positions
  | .hardReset | .start | .softRestart | .lineReset _ | .capture _ | .errorReportRead | .attentionRead
  | .attentionEnableWrite _ => true
  | .titleWordIn _ _ | .assemblerByte _ | .resync _ | .resyncRelease _ | .outboundWordSent _ | .deskCharacterSent
  | .deskCharacter _ _ | .deskBreak => true
  | .editionRetire _ _ | .editionFreed _ _ | .pageDeclare _ _ _ _ _ _ | .imageBegin _ _ | .imageEnd _ _ _
  | .pageQuery _ _ _ _ _ | .editionQuery _ _ _ _ => true
  | .approve _ _ _ _ _ | .kill _ _ _ _ | .hold _ _ _ | .unhold _ _ _ | .close _ _ _ _ | .setClock _ _ _ | .clockSecond
  | .cutoffExpiry | .lineRetry _ _ | .pendingRetrain _ | .colourClear _ _ _ | .siteQuery _ _ | .colourQuery _ _ _ => true
  | .admission | .targetWantServed | .handOver _ | .frameLeftLine _ | .bandReadDone _ _ | .scrub _ => true
  | .openAck _ _ _ | .bandAck _ _ _ | .plateDone _ _ | .plateRefused _ _ _ | .abortAck _ _ | .targetHeld _ _ _
  | .withdrawAck _ _ | .pressRun _ _ _ | .siteRestart _ => true
  | .tAckExpiry _ | .tConfExpiry _ | .trainWordPeriod _ _ | .attemptNoLock _ | .attemptStuck _
  | .measureWindowEnd _ | .tRetryExpiry _ => true

end Sys2Proof
end

