-- ==== Sys2Proof/Laws/Receiver.lean ====
section
/-! SUPPORT. What the receiver of a line can answer: its small equations, and that every command it makes is one a sender can form. -/

namespace Sys2Proof.Machine

set_option Elab.async false

@[simp] theorem frameWhole_cons (h : Word) (rest : List Word) :
    frameWhole (h :: rest) = (rest.length == wordsAfterHeader h) := rfl

@[simp] theorem Receiver.take_within (i : Site) (p : Option Word) (r : Receiver) (h : r.inFrame = true) : r.take i p = r.within i p := by
  simp [Receiver.take, h]

@[simp] theorem Receiver.take_outside (i : Site) (p : Option Word) (r : Receiver) (h : r.inFrame = false) : r.take i p = r.outside i p := by
  simp [Receiver.take, h]

@[simp] theorem Receiver.takeAll_nil (i : Site) (r : Receiver) : r.takeAll i [] = (r, []) := rfl

@[simp] theorem Receiver.takeAll_cons (i : Site) (p : Option Word) (ps : List (Option Word)) (r : Receiver) :
    r.takeAll i (p :: ps) = (((r.take i p).1.takeAll i ps).1, (r.take i p).2.toList ++ ((r.take i p).1.takeAll i ps).2) := rfl

theorem Receiver.takeAll_append (i : Site) (ps qs : List (Option Word)) (r : Receiver) :
    r.takeAll i (ps ++ qs)
      = (((r.takeAll i ps).1.takeAll i qs).1, (r.takeAll i ps).2 ++ ((r.takeAll i ps).1.takeAll i qs).2) := by
  induction ps generalizing r with
  | nil => simp
  | cons p ps ih => simp [ih, List.append_assoc]

/-- The body of a sound frame is within the line envelope. -/
theorem body_le_of_sound (h : Word) (rest : List Word) (hw : frameWhole (h :: rest) = true) (hc : crcWordOk (h :: rest) = true) :
    rest.dropLast.length ≤ frameLimit := by
  have hne : rest ≠ [] := by
    rintro rfl
    simp [crcWordOk] at hc
  rw [frameWhole_cons, beq_iff_eq, wordsAfterHeader] at hw
  by_cases hn : headerOverlong h = true
  · rw [if_pos hn] at hw
    exact absurd (List.length_eq_zero_iff.mp hw) hne
  · rw [if_neg hn] at hw
    rw [List.length_dropLast, hw, Nat.add_sub_cancel]
    simpa [headerOverlong] using hn

theorem wordHalves_flatMap_even (ws : List Word) : (ws.flatMap wordHalves).length % 2 = 0 := by
  induction ws with
  | nil => rfl
  | cons w ws ih => simp only [List.flatMap_cons, List.length_append, wordHalves, List.length_cons, List.length_nil]; omega

theorem inboundFrame_wellFormed (i : Site) (type tag : Byte) (w : Word) (rest : List Word) :
    (inboundFrame i type tag w rest).wellFormed = true := by
  unfold inboundFrame
  split
  case h_9 => rw [Instr.wellFormed, wordHalves_flatMap_even]; rfl
  all_goals rfl

/-- The command of a sound frame within the line envelope is one a sender can form. -/
theorem soundFrame_wellFormed (i : Site) (type tag : Byte) (body : List Word) (hb : body.length ≤ frameLimit) :
    (soundFrame i type tag body).wellFormed = true := by
  have hl : (BitVec.ofNat 16 body.length).toNat = body.length := by
    rw [BitVec.toNat_ofNat, Nat.mod_eq_of_lt (Nat.lt_of_le_of_lt hb (by unfold frameLimit; decide))]
  unfold soundFrame
  by_cases h : inboundLengthOk type body.length = true
  · rw [if_pos h]
    exact inboundFrame_wellFormed ..
  · rw [if_neg h]
    simp only [Instr.wellFormed, hl, Bool.and_eq_true, Bool.not_eq_true', Nat.ble_eq]
    exact ⟨by simpa using h, hb⟩

/-- The command a whole frame stands for is one a sender can form. -/
theorem frameCommand_wellFormed (i : Site) (words : List Word) (hw : frameWhole words = true) :
    (frameCommand i words).wellFormed = true := by
  unfold frameCommand
  split
  · next hbad => simpa [Instr.wellFormed] using hbad
  · next hbad =>
    match words, hw with
    | h :: rest, hw =>
      refine soundFrame_wellFormed i _ _ _ (body_le_of_sound h rest hw ?_)
      simpa [frameBad, hw] using hbad

/-- Every command the receiver makes is one a sender can form. -/
theorem Receiver.take_wellFormed (i : Site) (p : Option Word) (r : Receiver) (c : Instr) (h : (r.take i p).2 = some c) :
    c.wellFormed = true := by
  unfold Receiver.take at h
  split at h
  · unfold Receiver.within at h
    split at h
    · simp at h
    · dsimp only at h
      split at h
      · next hw =>
        cases h
        exact frameCommand_wellFormed i _ hw
      · simp at h
  · unfold Receiver.outside at h
    dsimp only at h
    split at h
    · simp at h
    · split at h
      · split at h
        · next hl =>
          cases h
          simpa [Instr.wellFormed] using hl
        · simp at h
      · simp at h

end Sys2Proof.Machine
end

