-- ==== Sys2Proof/Laws/State.lean ====
section
/-! SUPPORT. What each named update leaves alone, field by field: an update of State or of the working state leaves every field it does not
name, and the field it names is what was put there. -/

namespace Sys2Proof.Machine

/-! ### Updates of the machine -/

@[simp] theorem State.setWork_svc (w : Work) (s : State) : (s.setWork w).svc = s.svc := rfl
@[simp] theorem State.setWork_config (w : Work) (s : State) : (s.setWork w).config = s.config := rfl
@[simp] theorem State.setWork_ports (w : Work) (s : State) : (s.setWork w).ports = s.ports := rfl
@[simp] theorem State.setWork_desk (w : Work) (s : State) : (s.setWork w).desk = s.desk := rfl
@[simp] theorem State.setWork_dram (w : Work) (s : State) : (s.setWork w).dram = s.dram := rfl
@[simp] theorem State.setWork_pending (w : Work) (s : State) : (s.setWork w).pending = s.pending := rfl
@[simp] theorem State.setWork_work (w : Work) (s : State) : (s.setWork w).work = w := rfl

@[simp] theorem State.modPort_svc (t : Title) (f : TitlePort → TitlePort) (s : State) : (s.modPort t f).svc = s.svc := rfl
@[simp] theorem State.modPort_config (t : Title) (f : TitlePort → TitlePort) (s : State) : (s.modPort t f).config = s.config := rfl
@[simp] theorem State.modPort_desk (t : Title) (f : TitlePort → TitlePort) (s : State) : (s.modPort t f).desk = s.desk := rfl
@[simp] theorem State.modPort_dram (t : Title) (f : TitlePort → TitlePort) (s : State) : (s.modPort t f).dram = s.dram := rfl
@[simp] theorem State.modPort_work (t : Title) (f : TitlePort → TitlePort) (s : State) : (s.modPort t f).work = s.work := rfl
@[simp] theorem State.modPort_pending (t : Title) (f : TitlePort → TitlePort) (s : State) : (s.modPort t f).pending = s.pending := rfl

@[simp] theorem State.setStatus_config (x : CommandStatus) (s : State) : (s.setStatus x).config = s.config := rfl
@[simp] theorem State.setStatus_ports (x : CommandStatus) (s : State) : (s.setStatus x).ports = s.ports := rfl
@[simp] theorem State.setStatus_desk (x : CommandStatus) (s : State) : (s.setStatus x).desk = s.desk := rfl
@[simp] theorem State.setStatus_dram (x : CommandStatus) (s : State) : (s.setStatus x).dram = s.dram := rfl
@[simp] theorem State.setStatus_work (x : CommandStatus) (s : State) : (s.setStatus x).work = s.work := rfl
@[simp] theorem State.setStatus_pending (x : CommandStatus) (s : State) : (s.setStatus x).pending = s.pending := rfl

@[simp] theorem State.setRead_config (x : Word) (s : State) : (s.setRead x).config = s.config := rfl
@[simp] theorem State.setRead_ports (x : Word) (s : State) : (s.setRead x).ports = s.ports := rfl
@[simp] theorem State.setRead_desk (x : Word) (s : State) : (s.setRead x).desk = s.desk := rfl
@[simp] theorem State.setRead_dram (x : Word) (s : State) : (s.setRead x).dram = s.dram := rfl
@[simp] theorem State.setRead_work (x : Word) (s : State) : (s.setRead x).work = s.work := rfl
@[simp] theorem State.setRead_pending (x : Word) (s : State) : (s.setRead x).pending = s.pending := rfl

@[simp] theorem State.setAsm_svc (p : PortId) (a : Assembler) (s : State) : (s.setAsm p a).svc = s.svc := by
  cases p <;> rfl
@[simp] theorem State.setAsm_config (p : PortId) (a : Assembler) (s : State) : (s.setAsm p a).config = s.config := by
  cases p <;> rfl
@[simp] theorem State.setAsm_dram (p : PortId) (a : Assembler) (s : State) : (s.setAsm p a).dram = s.dram := by
  cases p <;> rfl
@[simp] theorem State.setAsm_work (p : PortId) (a : Assembler) (s : State) : (s.setAsm p a).work = s.work := by
  cases p <;> rfl
@[simp] theorem State.setAsm_pending (p : PortId) (a : Assembler) (s : State) : (s.setAsm p a).pending = s.pending := by
  cases p <;> rfl

@[simp] theorem State.messageTaken_svc (p : PortId) (s : State) : (s.messageTaken p).svc = s.svc := by
  unfold State.messageTaken; split <;> simp
@[simp] theorem State.messageTaken_config (p : PortId) (s : State) : (s.messageTaken p).config = s.config := by
  unfold State.messageTaken; split <;> simp
@[simp] theorem State.messageTaken_dram (p : PortId) (s : State) : (s.messageTaken p).dram = s.dram := by
  unfold State.messageTaken; split <;> simp
@[simp] theorem State.messageTaken_work (p : PortId) (s : State) : (s.messageTaken p).work = s.work := by
  unfold State.messageTaken; split <;> simp
@[simp] theorem State.messageTaken_pending (p : PortId) (s : State) : (s.messageTaken p).pending = s.pending := by
  unfold State.messageTaken; split <;> simp

/-! ### Updates of the working state -/

@[simp] theorem Work.setOut_errors (p : PortId) (x : Outbox) (w : Work) : (w.setOut p x).errors = w.errors := by
  rcases p with (_ | _) | _ <;> rfl
@[simp] theorem Work.setOut_attention (p : PortId) (x : Outbox) (w : Work) : (w.setOut p x).attention = w.attention := by
  rcases p with (_ | _) | _ <;> rfl
@[simp] theorem Work.setOut_corrected (p : PortId) (x : Outbox) (w : Work) : (w.setOut p x).corrected = w.corrected := by
  rcases p with (_ | _) | _ <;> rfl
@[simp] theorem Work.setOut_uncorrectable (p : PortId) (x : Outbox) (w : Work) : (w.setOut p x).uncorrectable = w.uncorrectable := by
  rcases p with (_ | _) | _ <;> rfl
@[simp] theorem Work.setOut_parsers (p : PortId) (x : Outbox) (w : Work) : (w.setOut p x).parsers = w.parsers := by
  rcases p with (_ | _) | _ <;> rfl
@[simp] theorem Work.setOut_pages (p : PortId) (x : Outbox) (w : Work) : (w.setOut p x).pages = w.pages := by
  rcases p with (_ | _) | _ <;> rfl
@[simp] theorem Work.setOut_backlog (p : PortId) (x : Outbox) (w : Work) : (w.setOut p x).backlog = w.backlog := by
  rcases p with (_ | _) | _ <;> rfl
@[simp] theorem Work.setOut_images (p : PortId) (x : Outbox) (w : Work) : (w.setOut p x).images = w.images := by
  rcases p with (_ | _) | _ <;> rfl
@[simp] theorem Work.setOut_extents (p : PortId) (x : Outbox) (w : Work) : (w.setOut p x).extents = w.extents := by
  rcases p with (_ | _) | _ <;> rfl
@[simp] theorem Work.setOut_extentCount (p : PortId) (x : Outbox) (w : Work) : (w.setOut p x).extentCount = w.extentCount := by
  rcases p with (_ | _) | _ <;> rfl
@[simp] theorem Work.setOut_freeExtents (p : PortId) (x : Outbox) (w : Work) : (w.setOut p x).freeExtents = w.freeExtents := by
  rcases p with (_ | _) | _ <;> rfl
@[simp] theorem Work.setOut_used (p : PortId) (x : Outbox) (w : Work) : (w.setOut p x).used = w.used := by
  rcases p with (_ | _) | _ <;> rfl
@[simp] theorem Work.setOut_quota (p : PortId) (x : Outbox) (w : Work) : (w.setOut p x).quota = w.quota := by
  rcases p with (_ | _) | _ <;> rfl
@[simp] theorem Work.setOut_scrubPos (p : PortId) (x : Outbox) (w : Work) : (w.setOut p x).scrubPos = w.scrubPos := by
  rcases p with (_ | _) | _ <;> rfl
@[simp] theorem Work.setOut_editions (p : PortId) (x : Outbox) (w : Work) : (w.setOut p x).editions = w.editions := by
  rcases p with (_ | _) | _ <;> rfl
@[simp] theorem Work.setOut_titleHold (p : PortId) (x : Outbox) (w : Work) : (w.setOut p x).titleHold = w.titleHold := by
  rcases p with (_ | _) | _ <;> rfl
@[simp] theorem Work.setOut_clock (p : PortId) (x : Outbox) (w : Work) : (w.setOut p x).clock = w.clock := by
  rcases p with (_ | _) | _ <;> rfl
@[simp] theorem Work.setOut_deadlines (p : PortId) (x : Outbox) (w : Work) : (w.setOut p x).deadlines = w.deadlines := by
  rcases p with (_ | _) | _ <;> rfl
@[simp] theorem Work.setOut_armCounter (p : PortId) (x : Outbox) (w : Work) : (w.setOut p x).armCounter = w.armCounter := by
  rcases p with (_ | _) | _ <;> rfl
@[simp] theorem Work.setOut_slots (p : PortId) (x : Outbox) (w : Work) : (w.setOut p x).slots = w.slots := by
  rcases p with (_ | _) | _ <;> rfl
@[simp] theorem Work.setOut_holdings (p : PortId) (x : Outbox) (w : Work) : (w.setOut p x).holdings = w.holdings := by
  rcases p with (_ | _) | _ <;> rfl
@[simp] theorem Work.setOut_checks (p : PortId) (x : Outbox) (w : Work) : (w.setOut p x).checks = w.checks := by
  rcases p with (_ | _) | _ <;> rfl
@[simp] theorem Work.setOut_entries (p : PortId) (x : Outbox) (w : Work) : (w.setOut p x).entries = w.entries := by
  rcases p with (_ | _) | _ <;> rfl
@[simp] theorem Work.setOut_insertion (p : PortId) (x : Outbox) (w : Work) : (w.setOut p x).insertion = w.insertion := by
  rcases p with (_ | _) | _ <;> rfl
@[simp] theorem Work.setOut_arbiters (p : PortId) (x : Outbox) (w : Work) : (w.setOut p x).arbiters = w.arbiters := by
  rcases p with (_ | _) | _ <;> rfl
@[simp] theorem Work.setOut_wants (p : PortId) (x : Outbox) (w : Work) : (w.setOut p x).wants = w.wants := by
  rcases p with (_ | _) | _ <;> rfl
@[simp] theorem Work.setOut_engines (p : PortId) (x : Outbox) (w : Work) : (w.setOut p x).engines = w.engines := by
  rcases p with (_ | _) | _ <;> rfl
@[simp] theorem Work.setOut_quals (p : PortId) (x : Outbox) (w : Work) : (w.setOut p x).quals = w.quals := by
  rcases p with (_ | _) | _ <;> rfl
@[simp] theorem Work.setOut_siteCounters (p : PortId) (x : Outbox) (w : Work) : (w.setOut p x).siteCounters = w.siteCounters := by
  rcases p with (_ | _) | _ <;> rfl

@[simp] theorem Work.raiseError_corrected (f : ErrorReport → ErrorReport) (w : Work) : (w.raiseError f).corrected = w.corrected := rfl
@[simp] theorem Work.raiseError_uncorrectable (f : ErrorReport → ErrorReport) (w : Work) : (w.raiseError f).uncorrectable = w.uncorrectable := rfl
@[simp] theorem Work.raiseError_out (f : ErrorReport → ErrorReport) (w : Work) : (w.raiseError f).out = w.out := rfl
@[simp] theorem Work.raiseError_parsers (f : ErrorReport → ErrorReport) (w : Work) : (w.raiseError f).parsers = w.parsers := rfl
@[simp] theorem Work.raiseError_pages (f : ErrorReport → ErrorReport) (w : Work) : (w.raiseError f).pages = w.pages := rfl
@[simp] theorem Work.raiseError_backlog (f : ErrorReport → ErrorReport) (w : Work) : (w.raiseError f).backlog = w.backlog := rfl
@[simp] theorem Work.raiseError_images (f : ErrorReport → ErrorReport) (w : Work) : (w.raiseError f).images = w.images := rfl
@[simp] theorem Work.raiseError_extents (f : ErrorReport → ErrorReport) (w : Work) : (w.raiseError f).extents = w.extents := rfl
@[simp] theorem Work.raiseError_extentCount (f : ErrorReport → ErrorReport) (w : Work) : (w.raiseError f).extentCount = w.extentCount := rfl
@[simp] theorem Work.raiseError_freeExtents (f : ErrorReport → ErrorReport) (w : Work) : (w.raiseError f).freeExtents = w.freeExtents := rfl
@[simp] theorem Work.raiseError_used (f : ErrorReport → ErrorReport) (w : Work) : (w.raiseError f).used = w.used := rfl
@[simp] theorem Work.raiseError_quota (f : ErrorReport → ErrorReport) (w : Work) : (w.raiseError f).quota = w.quota := rfl
@[simp] theorem Work.raiseError_scrubPos (f : ErrorReport → ErrorReport) (w : Work) : (w.raiseError f).scrubPos = w.scrubPos := rfl
@[simp] theorem Work.raiseError_editions (f : ErrorReport → ErrorReport) (w : Work) : (w.raiseError f).editions = w.editions := rfl
@[simp] theorem Work.raiseError_titleHold (f : ErrorReport → ErrorReport) (w : Work) : (w.raiseError f).titleHold = w.titleHold := rfl
@[simp] theorem Work.raiseError_clock (f : ErrorReport → ErrorReport) (w : Work) : (w.raiseError f).clock = w.clock := rfl
@[simp] theorem Work.raiseError_deadlines (f : ErrorReport → ErrorReport) (w : Work) : (w.raiseError f).deadlines = w.deadlines := rfl
@[simp] theorem Work.raiseError_armCounter (f : ErrorReport → ErrorReport) (w : Work) : (w.raiseError f).armCounter = w.armCounter := rfl
@[simp] theorem Work.raiseError_slots (f : ErrorReport → ErrorReport) (w : Work) : (w.raiseError f).slots = w.slots := rfl
@[simp] theorem Work.raiseError_holdings (f : ErrorReport → ErrorReport) (w : Work) : (w.raiseError f).holdings = w.holdings := rfl
@[simp] theorem Work.raiseError_checks (f : ErrorReport → ErrorReport) (w : Work) : (w.raiseError f).checks = w.checks := rfl
@[simp] theorem Work.raiseError_entries (f : ErrorReport → ErrorReport) (w : Work) : (w.raiseError f).entries = w.entries := rfl
@[simp] theorem Work.raiseError_insertion (f : ErrorReport → ErrorReport) (w : Work) : (w.raiseError f).insertion = w.insertion := rfl
@[simp] theorem Work.raiseError_arbiters (f : ErrorReport → ErrorReport) (w : Work) : (w.raiseError f).arbiters = w.arbiters := rfl
@[simp] theorem Work.raiseError_wants (f : ErrorReport → ErrorReport) (w : Work) : (w.raiseError f).wants = w.wants := rfl
@[simp] theorem Work.raiseError_engines (f : ErrorReport → ErrorReport) (w : Work) : (w.raiseError f).engines = w.engines := rfl
@[simp] theorem Work.raiseError_quals (f : ErrorReport → ErrorReport) (w : Work) : (w.raiseError f).quals = w.quals := rfl
@[simp] theorem Work.raiseError_siteCounters (f : ErrorReport → ErrorReport) (w : Work) : (w.raiseError f).siteCounters = w.siteCounters := rfl

@[simp] theorem Work.notify_corrected (p : PortId) (n : Notice) (w : Work) : (w.notify p n).corrected = w.corrected := by
  unfold Work.notify; dsimp only; split <;> simp
@[simp] theorem Work.notify_uncorrectable (p : PortId) (n : Notice) (w : Work) : (w.notify p n).uncorrectable = w.uncorrectable := by
  unfold Work.notify; dsimp only; split <;> simp
@[simp] theorem Work.notify_parsers (p : PortId) (n : Notice) (w : Work) : (w.notify p n).parsers = w.parsers := by
  unfold Work.notify; dsimp only; split <;> simp
@[simp] theorem Work.notify_pages (p : PortId) (n : Notice) (w : Work) : (w.notify p n).pages = w.pages := by
  unfold Work.notify; dsimp only; split <;> simp
@[simp] theorem Work.notify_backlog (p : PortId) (n : Notice) (w : Work) : (w.notify p n).backlog = w.backlog := by
  unfold Work.notify; dsimp only; split <;> simp
@[simp] theorem Work.notify_images (p : PortId) (n : Notice) (w : Work) : (w.notify p n).images = w.images := by
  unfold Work.notify; dsimp only; split <;> simp
@[simp] theorem Work.notify_extents (p : PortId) (n : Notice) (w : Work) : (w.notify p n).extents = w.extents := by
  unfold Work.notify; dsimp only; split <;> simp
@[simp] theorem Work.notify_extentCount (p : PortId) (n : Notice) (w : Work) : (w.notify p n).extentCount = w.extentCount := by
  unfold Work.notify; dsimp only; split <;> simp
@[simp] theorem Work.notify_freeExtents (p : PortId) (n : Notice) (w : Work) : (w.notify p n).freeExtents = w.freeExtents := by
  unfold Work.notify; dsimp only; split <;> simp
@[simp] theorem Work.notify_used (p : PortId) (n : Notice) (w : Work) : (w.notify p n).used = w.used := by
  unfold Work.notify; dsimp only; split <;> simp
@[simp] theorem Work.notify_quota (p : PortId) (n : Notice) (w : Work) : (w.notify p n).quota = w.quota := by
  unfold Work.notify; dsimp only; split <;> simp
@[simp] theorem Work.notify_scrubPos (p : PortId) (n : Notice) (w : Work) : (w.notify p n).scrubPos = w.scrubPos := by
  unfold Work.notify; dsimp only; split <;> simp
@[simp] theorem Work.notify_editions (p : PortId) (n : Notice) (w : Work) : (w.notify p n).editions = w.editions := by
  unfold Work.notify; dsimp only; split <;> simp
@[simp] theorem Work.notify_titleHold (p : PortId) (n : Notice) (w : Work) : (w.notify p n).titleHold = w.titleHold := by
  unfold Work.notify; dsimp only; split <;> simp
@[simp] theorem Work.notify_clock (p : PortId) (n : Notice) (w : Work) : (w.notify p n).clock = w.clock := by
  unfold Work.notify; dsimp only; split <;> simp
@[simp] theorem Work.notify_deadlines (p : PortId) (n : Notice) (w : Work) : (w.notify p n).deadlines = w.deadlines := by
  unfold Work.notify; dsimp only; split <;> simp
@[simp] theorem Work.notify_armCounter (p : PortId) (n : Notice) (w : Work) : (w.notify p n).armCounter = w.armCounter := by
  unfold Work.notify; dsimp only; split <;> simp
@[simp] theorem Work.notify_slots (p : PortId) (n : Notice) (w : Work) : (w.notify p n).slots = w.slots := by
  unfold Work.notify; dsimp only; split <;> simp
@[simp] theorem Work.notify_holdings (p : PortId) (n : Notice) (w : Work) : (w.notify p n).holdings = w.holdings := by
  unfold Work.notify; dsimp only; split <;> simp
@[simp] theorem Work.notify_checks (p : PortId) (n : Notice) (w : Work) : (w.notify p n).checks = w.checks := by
  unfold Work.notify; dsimp only; split <;> simp
@[simp] theorem Work.notify_entries (p : PortId) (n : Notice) (w : Work) : (w.notify p n).entries = w.entries := by
  unfold Work.notify; dsimp only; split <;> simp
@[simp] theorem Work.notify_insertion (p : PortId) (n : Notice) (w : Work) : (w.notify p n).insertion = w.insertion := by
  unfold Work.notify; dsimp only; split <;> simp
@[simp] theorem Work.notify_arbiters (p : PortId) (n : Notice) (w : Work) : (w.notify p n).arbiters = w.arbiters := by
  unfold Work.notify; dsimp only; split <;> simp
@[simp] theorem Work.notify_wants (p : PortId) (n : Notice) (w : Work) : (w.notify p n).wants = w.wants := by
  unfold Work.notify; dsimp only; split <;> simp
@[simp] theorem Work.notify_engines (p : PortId) (n : Notice) (w : Work) : (w.notify p n).engines = w.engines := by
  unfold Work.notify; dsimp only; split <;> simp
@[simp] theorem Work.notify_quals (p : PortId) (n : Notice) (w : Work) : (w.notify p n).quals = w.quals := by
  unfold Work.notify; dsimp only; split <;> simp
@[simp] theorem Work.notify_siteCounters (p : PortId) (n : Notice) (w : Work) : (w.notify p n).siteCounters = w.siteCounters := by
  unfold Work.notify; dsimp only; split <;> simp

@[simp] theorem Work.toTitle_corrected (t : Title) (n : Notice) (w : Work) : (w.toTitle t n).corrected = w.corrected := by
  unfold Work.toTitle; simp
@[simp] theorem Work.toTitle_uncorrectable (t : Title) (n : Notice) (w : Work) : (w.toTitle t n).uncorrectable = w.uncorrectable := by
  unfold Work.toTitle; simp
@[simp] theorem Work.toTitle_parsers (t : Title) (n : Notice) (w : Work) : (w.toTitle t n).parsers = w.parsers := by
  unfold Work.toTitle; simp
@[simp] theorem Work.toTitle_pages (t : Title) (n : Notice) (w : Work) : (w.toTitle t n).pages = w.pages := by
  unfold Work.toTitle; simp
@[simp] theorem Work.toTitle_backlog (t : Title) (n : Notice) (w : Work) : (w.toTitle t n).backlog = w.backlog := by
  unfold Work.toTitle; simp
@[simp] theorem Work.toTitle_images (t : Title) (n : Notice) (w : Work) : (w.toTitle t n).images = w.images := by
  unfold Work.toTitle; simp
@[simp] theorem Work.toTitle_extents (t : Title) (n : Notice) (w : Work) : (w.toTitle t n).extents = w.extents := by
  unfold Work.toTitle; simp
@[simp] theorem Work.toTitle_extentCount (t : Title) (n : Notice) (w : Work) : (w.toTitle t n).extentCount = w.extentCount := by
  unfold Work.toTitle; simp
@[simp] theorem Work.toTitle_freeExtents (t : Title) (n : Notice) (w : Work) : (w.toTitle t n).freeExtents = w.freeExtents := by
  unfold Work.toTitle; simp
@[simp] theorem Work.toTitle_used (t : Title) (n : Notice) (w : Work) : (w.toTitle t n).used = w.used := by
  unfold Work.toTitle; simp
@[simp] theorem Work.toTitle_quota (t : Title) (n : Notice) (w : Work) : (w.toTitle t n).quota = w.quota := by
  unfold Work.toTitle; simp
@[simp] theorem Work.toTitle_scrubPos (t : Title) (n : Notice) (w : Work) : (w.toTitle t n).scrubPos = w.scrubPos := by
  unfold Work.toTitle; simp
@[simp] theorem Work.toTitle_editions (t : Title) (n : Notice) (w : Work) : (w.toTitle t n).editions = w.editions := by
  unfold Work.toTitle; simp
@[simp] theorem Work.toTitle_titleHold (t : Title) (n : Notice) (w : Work) : (w.toTitle t n).titleHold = w.titleHold := by
  unfold Work.toTitle; simp
@[simp] theorem Work.toTitle_clock (t : Title) (n : Notice) (w : Work) : (w.toTitle t n).clock = w.clock := by
  unfold Work.toTitle; simp
@[simp] theorem Work.toTitle_deadlines (t : Title) (n : Notice) (w : Work) : (w.toTitle t n).deadlines = w.deadlines := by
  unfold Work.toTitle; simp
@[simp] theorem Work.toTitle_armCounter (t : Title) (n : Notice) (w : Work) : (w.toTitle t n).armCounter = w.armCounter := by
  unfold Work.toTitle; simp
@[simp] theorem Work.toTitle_slots (t : Title) (n : Notice) (w : Work) : (w.toTitle t n).slots = w.slots := by
  unfold Work.toTitle; simp
@[simp] theorem Work.toTitle_holdings (t : Title) (n : Notice) (w : Work) : (w.toTitle t n).holdings = w.holdings := by
  unfold Work.toTitle; simp
@[simp] theorem Work.toTitle_checks (t : Title) (n : Notice) (w : Work) : (w.toTitle t n).checks = w.checks := by
  unfold Work.toTitle; simp
@[simp] theorem Work.toTitle_entries (t : Title) (n : Notice) (w : Work) : (w.toTitle t n).entries = w.entries := by
  unfold Work.toTitle; simp
@[simp] theorem Work.toTitle_insertion (t : Title) (n : Notice) (w : Work) : (w.toTitle t n).insertion = w.insertion := by
  unfold Work.toTitle; simp
@[simp] theorem Work.toTitle_arbiters (t : Title) (n : Notice) (w : Work) : (w.toTitle t n).arbiters = w.arbiters := by
  unfold Work.toTitle; simp
@[simp] theorem Work.toTitle_wants (t : Title) (n : Notice) (w : Work) : (w.toTitle t n).wants = w.wants := by
  unfold Work.toTitle; simp
@[simp] theorem Work.toTitle_engines (t : Title) (n : Notice) (w : Work) : (w.toTitle t n).engines = w.engines := by
  unfold Work.toTitle; simp
@[simp] theorem Work.toTitle_quals (t : Title) (n : Notice) (w : Work) : (w.toTitle t n).quals = w.quals := by
  unfold Work.toTitle; simp
@[simp] theorem Work.toTitle_siteCounters (t : Title) (n : Notice) (w : Work) : (w.toTitle t n).siteCounters = w.siteCounters := by
  unfold Work.toTitle; simp

@[simp] theorem Work.toDesk_corrected (n : Notice) (w : Work) : (w.toDesk n).corrected = w.corrected := by
  unfold Work.toDesk; simp
@[simp] theorem Work.toDesk_uncorrectable (n : Notice) (w : Work) : (w.toDesk n).uncorrectable = w.uncorrectable := by
  unfold Work.toDesk; simp
@[simp] theorem Work.toDesk_parsers (n : Notice) (w : Work) : (w.toDesk n).parsers = w.parsers := by
  unfold Work.toDesk; simp
@[simp] theorem Work.toDesk_pages (n : Notice) (w : Work) : (w.toDesk n).pages = w.pages := by
  unfold Work.toDesk; simp
@[simp] theorem Work.toDesk_backlog (n : Notice) (w : Work) : (w.toDesk n).backlog = w.backlog := by
  unfold Work.toDesk; simp
@[simp] theorem Work.toDesk_images (n : Notice) (w : Work) : (w.toDesk n).images = w.images := by
  unfold Work.toDesk; simp
@[simp] theorem Work.toDesk_extents (n : Notice) (w : Work) : (w.toDesk n).extents = w.extents := by
  unfold Work.toDesk; simp
@[simp] theorem Work.toDesk_extentCount (n : Notice) (w : Work) : (w.toDesk n).extentCount = w.extentCount := by
  unfold Work.toDesk; simp
@[simp] theorem Work.toDesk_freeExtents (n : Notice) (w : Work) : (w.toDesk n).freeExtents = w.freeExtents := by
  unfold Work.toDesk; simp
@[simp] theorem Work.toDesk_used (n : Notice) (w : Work) : (w.toDesk n).used = w.used := by
  unfold Work.toDesk; simp
@[simp] theorem Work.toDesk_quota (n : Notice) (w : Work) : (w.toDesk n).quota = w.quota := by
  unfold Work.toDesk; simp
@[simp] theorem Work.toDesk_scrubPos (n : Notice) (w : Work) : (w.toDesk n).scrubPos = w.scrubPos := by
  unfold Work.toDesk; simp
@[simp] theorem Work.toDesk_editions (n : Notice) (w : Work) : (w.toDesk n).editions = w.editions := by
  unfold Work.toDesk; simp
@[simp] theorem Work.toDesk_titleHold (n : Notice) (w : Work) : (w.toDesk n).titleHold = w.titleHold := by
  unfold Work.toDesk; simp
@[simp] theorem Work.toDesk_clock (n : Notice) (w : Work) : (w.toDesk n).clock = w.clock := by
  unfold Work.toDesk; simp
@[simp] theorem Work.toDesk_deadlines (n : Notice) (w : Work) : (w.toDesk n).deadlines = w.deadlines := by
  unfold Work.toDesk; simp
@[simp] theorem Work.toDesk_armCounter (n : Notice) (w : Work) : (w.toDesk n).armCounter = w.armCounter := by
  unfold Work.toDesk; simp
@[simp] theorem Work.toDesk_slots (n : Notice) (w : Work) : (w.toDesk n).slots = w.slots := by
  unfold Work.toDesk; simp
@[simp] theorem Work.toDesk_holdings (n : Notice) (w : Work) : (w.toDesk n).holdings = w.holdings := by
  unfold Work.toDesk; simp
@[simp] theorem Work.toDesk_checks (n : Notice) (w : Work) : (w.toDesk n).checks = w.checks := by
  unfold Work.toDesk; simp
@[simp] theorem Work.toDesk_entries (n : Notice) (w : Work) : (w.toDesk n).entries = w.entries := by
  unfold Work.toDesk; simp
@[simp] theorem Work.toDesk_insertion (n : Notice) (w : Work) : (w.toDesk n).insertion = w.insertion := by
  unfold Work.toDesk; simp
@[simp] theorem Work.toDesk_arbiters (n : Notice) (w : Work) : (w.toDesk n).arbiters = w.arbiters := by
  unfold Work.toDesk; simp
@[simp] theorem Work.toDesk_wants (n : Notice) (w : Work) : (w.toDesk n).wants = w.wants := by
  unfold Work.toDesk; simp
@[simp] theorem Work.toDesk_engines (n : Notice) (w : Work) : (w.toDesk n).engines = w.engines := by
  unfold Work.toDesk; simp
@[simp] theorem Work.toDesk_quals (n : Notice) (w : Work) : (w.toDesk n).quals = w.quals := by
  unfold Work.toDesk; simp
@[simp] theorem Work.toDesk_siteCounters (n : Notice) (w : Work) : (w.toDesk n).siteCounters = w.siteCounters := by
  unfold Work.toDesk; simp

@[simp] theorem Work.setEngine_errors (i : Site) (x : Engine) (w : Work) : (w.setEngine i x).errors = w.errors := rfl
@[simp] theorem Work.setEngine_attention (i : Site) (x : Engine) (w : Work) : (w.setEngine i x).attention = w.attention := rfl
@[simp] theorem Work.setEngine_corrected (i : Site) (x : Engine) (w : Work) : (w.setEngine i x).corrected = w.corrected := rfl
@[simp] theorem Work.setEngine_uncorrectable (i : Site) (x : Engine) (w : Work) : (w.setEngine i x).uncorrectable = w.uncorrectable := rfl
@[simp] theorem Work.setEngine_out (i : Site) (x : Engine) (w : Work) : (w.setEngine i x).out = w.out := rfl
@[simp] theorem Work.setEngine_parsers (i : Site) (x : Engine) (w : Work) : (w.setEngine i x).parsers = w.parsers := rfl
@[simp] theorem Work.setEngine_pages (i : Site) (x : Engine) (w : Work) : (w.setEngine i x).pages = w.pages := rfl
@[simp] theorem Work.setEngine_backlog (i : Site) (x : Engine) (w : Work) : (w.setEngine i x).backlog = w.backlog := rfl
@[simp] theorem Work.setEngine_images (i : Site) (x : Engine) (w : Work) : (w.setEngine i x).images = w.images := rfl
@[simp] theorem Work.setEngine_extents (i : Site) (x : Engine) (w : Work) : (w.setEngine i x).extents = w.extents := rfl
@[simp] theorem Work.setEngine_extentCount (i : Site) (x : Engine) (w : Work) : (w.setEngine i x).extentCount = w.extentCount := rfl
@[simp] theorem Work.setEngine_freeExtents (i : Site) (x : Engine) (w : Work) : (w.setEngine i x).freeExtents = w.freeExtents := rfl
@[simp] theorem Work.setEngine_used (i : Site) (x : Engine) (w : Work) : (w.setEngine i x).used = w.used := rfl
@[simp] theorem Work.setEngine_quota (i : Site) (x : Engine) (w : Work) : (w.setEngine i x).quota = w.quota := rfl
@[simp] theorem Work.setEngine_scrubPos (i : Site) (x : Engine) (w : Work) : (w.setEngine i x).scrubPos = w.scrubPos := rfl
@[simp] theorem Work.setEngine_editions (i : Site) (x : Engine) (w : Work) : (w.setEngine i x).editions = w.editions := rfl
@[simp] theorem Work.setEngine_titleHold (i : Site) (x : Engine) (w : Work) : (w.setEngine i x).titleHold = w.titleHold := rfl
@[simp] theorem Work.setEngine_clock (i : Site) (x : Engine) (w : Work) : (w.setEngine i x).clock = w.clock := rfl
@[simp] theorem Work.setEngine_deadlines (i : Site) (x : Engine) (w : Work) : (w.setEngine i x).deadlines = w.deadlines := rfl
@[simp] theorem Work.setEngine_armCounter (i : Site) (x : Engine) (w : Work) : (w.setEngine i x).armCounter = w.armCounter := rfl
@[simp] theorem Work.setEngine_slots (i : Site) (x : Engine) (w : Work) : (w.setEngine i x).slots = w.slots := rfl
@[simp] theorem Work.setEngine_holdings (i : Site) (x : Engine) (w : Work) : (w.setEngine i x).holdings = w.holdings := rfl
@[simp] theorem Work.setEngine_checks (i : Site) (x : Engine) (w : Work) : (w.setEngine i x).checks = w.checks := rfl
@[simp] theorem Work.setEngine_entries (i : Site) (x : Engine) (w : Work) : (w.setEngine i x).entries = w.entries := rfl
@[simp] theorem Work.setEngine_insertion (i : Site) (x : Engine) (w : Work) : (w.setEngine i x).insertion = w.insertion := rfl
@[simp] theorem Work.setEngine_arbiters (i : Site) (x : Engine) (w : Work) : (w.setEngine i x).arbiters = w.arbiters := rfl
@[simp] theorem Work.setEngine_wants (i : Site) (x : Engine) (w : Work) : (w.setEngine i x).wants = w.wants := rfl
@[simp] theorem Work.setEngine_quals (i : Site) (x : Engine) (w : Work) : (w.setEngine i x).quals = w.quals := rfl
@[simp] theorem Work.setEngine_siteCounters (i : Site) (x : Engine) (w : Work) : (w.setEngine i x).siteCounters = w.siteCounters := rfl

@[simp] theorem Work.modEngine_errors (i : Site) (f : Engine → Engine) (w : Work) : (w.modEngine i f).errors = w.errors := rfl
@[simp] theorem Work.modEngine_attention (i : Site) (f : Engine → Engine) (w : Work) : (w.modEngine i f).attention = w.attention := rfl
@[simp] theorem Work.modEngine_corrected (i : Site) (f : Engine → Engine) (w : Work) : (w.modEngine i f).corrected = w.corrected := rfl
@[simp] theorem Work.modEngine_uncorrectable (i : Site) (f : Engine → Engine) (w : Work) : (w.modEngine i f).uncorrectable = w.uncorrectable := rfl
@[simp] theorem Work.modEngine_out (i : Site) (f : Engine → Engine) (w : Work) : (w.modEngine i f).out = w.out := rfl
@[simp] theorem Work.modEngine_parsers (i : Site) (f : Engine → Engine) (w : Work) : (w.modEngine i f).parsers = w.parsers := rfl
@[simp] theorem Work.modEngine_pages (i : Site) (f : Engine → Engine) (w : Work) : (w.modEngine i f).pages = w.pages := rfl
@[simp] theorem Work.modEngine_backlog (i : Site) (f : Engine → Engine) (w : Work) : (w.modEngine i f).backlog = w.backlog := rfl
@[simp] theorem Work.modEngine_images (i : Site) (f : Engine → Engine) (w : Work) : (w.modEngine i f).images = w.images := rfl
@[simp] theorem Work.modEngine_extents (i : Site) (f : Engine → Engine) (w : Work) : (w.modEngine i f).extents = w.extents := rfl
@[simp] theorem Work.modEngine_extentCount (i : Site) (f : Engine → Engine) (w : Work) : (w.modEngine i f).extentCount = w.extentCount := rfl
@[simp] theorem Work.modEngine_freeExtents (i : Site) (f : Engine → Engine) (w : Work) : (w.modEngine i f).freeExtents = w.freeExtents := rfl
@[simp] theorem Work.modEngine_used (i : Site) (f : Engine → Engine) (w : Work) : (w.modEngine i f).used = w.used := rfl
@[simp] theorem Work.modEngine_quota (i : Site) (f : Engine → Engine) (w : Work) : (w.modEngine i f).quota = w.quota := rfl
@[simp] theorem Work.modEngine_scrubPos (i : Site) (f : Engine → Engine) (w : Work) : (w.modEngine i f).scrubPos = w.scrubPos := rfl
@[simp] theorem Work.modEngine_editions (i : Site) (f : Engine → Engine) (w : Work) : (w.modEngine i f).editions = w.editions := rfl
@[simp] theorem Work.modEngine_titleHold (i : Site) (f : Engine → Engine) (w : Work) : (w.modEngine i f).titleHold = w.titleHold := rfl
@[simp] theorem Work.modEngine_clock (i : Site) (f : Engine → Engine) (w : Work) : (w.modEngine i f).clock = w.clock := rfl
@[simp] theorem Work.modEngine_deadlines (i : Site) (f : Engine → Engine) (w : Work) : (w.modEngine i f).deadlines = w.deadlines := rfl
@[simp] theorem Work.modEngine_armCounter (i : Site) (f : Engine → Engine) (w : Work) : (w.modEngine i f).armCounter = w.armCounter := rfl
@[simp] theorem Work.modEngine_slots (i : Site) (f : Engine → Engine) (w : Work) : (w.modEngine i f).slots = w.slots := rfl
@[simp] theorem Work.modEngine_holdings (i : Site) (f : Engine → Engine) (w : Work) : (w.modEngine i f).holdings = w.holdings := rfl
@[simp] theorem Work.modEngine_checks (i : Site) (f : Engine → Engine) (w : Work) : (w.modEngine i f).checks = w.checks := rfl
@[simp] theorem Work.modEngine_entries (i : Site) (f : Engine → Engine) (w : Work) : (w.modEngine i f).entries = w.entries := rfl
@[simp] theorem Work.modEngine_insertion (i : Site) (f : Engine → Engine) (w : Work) : (w.modEngine i f).insertion = w.insertion := rfl
@[simp] theorem Work.modEngine_arbiters (i : Site) (f : Engine → Engine) (w : Work) : (w.modEngine i f).arbiters = w.arbiters := rfl
@[simp] theorem Work.modEngine_wants (i : Site) (f : Engine → Engine) (w : Work) : (w.modEngine i f).wants = w.wants := rfl
@[simp] theorem Work.modEngine_quals (i : Site) (f : Engine → Engine) (w : Work) : (w.modEngine i f).quals = w.quals := rfl
@[simp] theorem Work.modEngine_siteCounters (i : Site) (f : Engine → Engine) (w : Work) : (w.modEngine i f).siteCounters = w.siteCounters := rfl

@[simp] theorem Work.setQual_errors (i : Site) (x : Qualifier) (w : Work) : (w.setQual i x).errors = w.errors := rfl
@[simp] theorem Work.setQual_attention (i : Site) (x : Qualifier) (w : Work) : (w.setQual i x).attention = w.attention := rfl
@[simp] theorem Work.setQual_corrected (i : Site) (x : Qualifier) (w : Work) : (w.setQual i x).corrected = w.corrected := rfl
@[simp] theorem Work.setQual_uncorrectable (i : Site) (x : Qualifier) (w : Work) : (w.setQual i x).uncorrectable = w.uncorrectable := rfl
@[simp] theorem Work.setQual_out (i : Site) (x : Qualifier) (w : Work) : (w.setQual i x).out = w.out := rfl
@[simp] theorem Work.setQual_parsers (i : Site) (x : Qualifier) (w : Work) : (w.setQual i x).parsers = w.parsers := rfl
@[simp] theorem Work.setQual_pages (i : Site) (x : Qualifier) (w : Work) : (w.setQual i x).pages = w.pages := rfl
@[simp] theorem Work.setQual_backlog (i : Site) (x : Qualifier) (w : Work) : (w.setQual i x).backlog = w.backlog := rfl
@[simp] theorem Work.setQual_images (i : Site) (x : Qualifier) (w : Work) : (w.setQual i x).images = w.images := rfl
@[simp] theorem Work.setQual_extents (i : Site) (x : Qualifier) (w : Work) : (w.setQual i x).extents = w.extents := rfl
@[simp] theorem Work.setQual_extentCount (i : Site) (x : Qualifier) (w : Work) : (w.setQual i x).extentCount = w.extentCount := rfl
@[simp] theorem Work.setQual_freeExtents (i : Site) (x : Qualifier) (w : Work) : (w.setQual i x).freeExtents = w.freeExtents := rfl
@[simp] theorem Work.setQual_used (i : Site) (x : Qualifier) (w : Work) : (w.setQual i x).used = w.used := rfl
@[simp] theorem Work.setQual_quota (i : Site) (x : Qualifier) (w : Work) : (w.setQual i x).quota = w.quota := rfl
@[simp] theorem Work.setQual_scrubPos (i : Site) (x : Qualifier) (w : Work) : (w.setQual i x).scrubPos = w.scrubPos := rfl
@[simp] theorem Work.setQual_editions (i : Site) (x : Qualifier) (w : Work) : (w.setQual i x).editions = w.editions := rfl
@[simp] theorem Work.setQual_titleHold (i : Site) (x : Qualifier) (w : Work) : (w.setQual i x).titleHold = w.titleHold := rfl
@[simp] theorem Work.setQual_clock (i : Site) (x : Qualifier) (w : Work) : (w.setQual i x).clock = w.clock := rfl
@[simp] theorem Work.setQual_deadlines (i : Site) (x : Qualifier) (w : Work) : (w.setQual i x).deadlines = w.deadlines := rfl
@[simp] theorem Work.setQual_armCounter (i : Site) (x : Qualifier) (w : Work) : (w.setQual i x).armCounter = w.armCounter := rfl
@[simp] theorem Work.setQual_slots (i : Site) (x : Qualifier) (w : Work) : (w.setQual i x).slots = w.slots := rfl
@[simp] theorem Work.setQual_holdings (i : Site) (x : Qualifier) (w : Work) : (w.setQual i x).holdings = w.holdings := rfl
@[simp] theorem Work.setQual_checks (i : Site) (x : Qualifier) (w : Work) : (w.setQual i x).checks = w.checks := rfl
@[simp] theorem Work.setQual_entries (i : Site) (x : Qualifier) (w : Work) : (w.setQual i x).entries = w.entries := rfl
@[simp] theorem Work.setQual_insertion (i : Site) (x : Qualifier) (w : Work) : (w.setQual i x).insertion = w.insertion := rfl
@[simp] theorem Work.setQual_arbiters (i : Site) (x : Qualifier) (w : Work) : (w.setQual i x).arbiters = w.arbiters := rfl
@[simp] theorem Work.setQual_wants (i : Site) (x : Qualifier) (w : Work) : (w.setQual i x).wants = w.wants := rfl
@[simp] theorem Work.setQual_engines (i : Site) (x : Qualifier) (w : Work) : (w.setQual i x).engines = w.engines := rfl
@[simp] theorem Work.setQual_siteCounters (i : Site) (x : Qualifier) (w : Work) : (w.setQual i x).siteCounters = w.siteCounters := rfl

@[simp] theorem Work.modQual_errors (i : Site) (f : Qualifier → Qualifier) (w : Work) : (w.modQual i f).errors = w.errors := rfl
@[simp] theorem Work.modQual_attention (i : Site) (f : Qualifier → Qualifier) (w : Work) : (w.modQual i f).attention = w.attention := rfl
@[simp] theorem Work.modQual_corrected (i : Site) (f : Qualifier → Qualifier) (w : Work) : (w.modQual i f).corrected = w.corrected := rfl
@[simp] theorem Work.modQual_uncorrectable (i : Site) (f : Qualifier → Qualifier) (w : Work) : (w.modQual i f).uncorrectable = w.uncorrectable := rfl
@[simp] theorem Work.modQual_out (i : Site) (f : Qualifier → Qualifier) (w : Work) : (w.modQual i f).out = w.out := rfl
@[simp] theorem Work.modQual_parsers (i : Site) (f : Qualifier → Qualifier) (w : Work) : (w.modQual i f).parsers = w.parsers := rfl
@[simp] theorem Work.modQual_pages (i : Site) (f : Qualifier → Qualifier) (w : Work) : (w.modQual i f).pages = w.pages := rfl
@[simp] theorem Work.modQual_backlog (i : Site) (f : Qualifier → Qualifier) (w : Work) : (w.modQual i f).backlog = w.backlog := rfl
@[simp] theorem Work.modQual_images (i : Site) (f : Qualifier → Qualifier) (w : Work) : (w.modQual i f).images = w.images := rfl
@[simp] theorem Work.modQual_extents (i : Site) (f : Qualifier → Qualifier) (w : Work) : (w.modQual i f).extents = w.extents := rfl
@[simp] theorem Work.modQual_extentCount (i : Site) (f : Qualifier → Qualifier) (w : Work) : (w.modQual i f).extentCount = w.extentCount := rfl
@[simp] theorem Work.modQual_freeExtents (i : Site) (f : Qualifier → Qualifier) (w : Work) : (w.modQual i f).freeExtents = w.freeExtents := rfl
@[simp] theorem Work.modQual_used (i : Site) (f : Qualifier → Qualifier) (w : Work) : (w.modQual i f).used = w.used := rfl
@[simp] theorem Work.modQual_quota (i : Site) (f : Qualifier → Qualifier) (w : Work) : (w.modQual i f).quota = w.quota := rfl
@[simp] theorem Work.modQual_scrubPos (i : Site) (f : Qualifier → Qualifier) (w : Work) : (w.modQual i f).scrubPos = w.scrubPos := rfl
@[simp] theorem Work.modQual_editions (i : Site) (f : Qualifier → Qualifier) (w : Work) : (w.modQual i f).editions = w.editions := rfl
@[simp] theorem Work.modQual_titleHold (i : Site) (f : Qualifier → Qualifier) (w : Work) : (w.modQual i f).titleHold = w.titleHold := rfl
@[simp] theorem Work.modQual_clock (i : Site) (f : Qualifier → Qualifier) (w : Work) : (w.modQual i f).clock = w.clock := rfl
@[simp] theorem Work.modQual_deadlines (i : Site) (f : Qualifier → Qualifier) (w : Work) : (w.modQual i f).deadlines = w.deadlines := rfl
@[simp] theorem Work.modQual_armCounter (i : Site) (f : Qualifier → Qualifier) (w : Work) : (w.modQual i f).armCounter = w.armCounter := rfl
@[simp] theorem Work.modQual_slots (i : Site) (f : Qualifier → Qualifier) (w : Work) : (w.modQual i f).slots = w.slots := rfl
@[simp] theorem Work.modQual_holdings (i : Site) (f : Qualifier → Qualifier) (w : Work) : (w.modQual i f).holdings = w.holdings := rfl
@[simp] theorem Work.modQual_checks (i : Site) (f : Qualifier → Qualifier) (w : Work) : (w.modQual i f).checks = w.checks := rfl
@[simp] theorem Work.modQual_entries (i : Site) (f : Qualifier → Qualifier) (w : Work) : (w.modQual i f).entries = w.entries := rfl
@[simp] theorem Work.modQual_insertion (i : Site) (f : Qualifier → Qualifier) (w : Work) : (w.modQual i f).insertion = w.insertion := rfl
@[simp] theorem Work.modQual_arbiters (i : Site) (f : Qualifier → Qualifier) (w : Work) : (w.modQual i f).arbiters = w.arbiters := rfl
@[simp] theorem Work.modQual_wants (i : Site) (f : Qualifier → Qualifier) (w : Work) : (w.modQual i f).wants = w.wants := rfl
@[simp] theorem Work.modQual_engines (i : Site) (f : Qualifier → Qualifier) (w : Work) : (w.modQual i f).engines = w.engines := rfl
@[simp] theorem Work.modQual_siteCounters (i : Site) (f : Qualifier → Qualifier) (w : Work) : (w.modQual i f).siteCounters = w.siteCounters := rfl

@[simp] theorem Work.modSiteCounters_errors (i : Site) (f : SiteCounters → SiteCounters) (w : Work) : (w.modSiteCounters i f).errors = w.errors := rfl
@[simp] theorem Work.modSiteCounters_attention (i : Site) (f : SiteCounters → SiteCounters) (w : Work) : (w.modSiteCounters i f).attention = w.attention := rfl
@[simp] theorem Work.modSiteCounters_corrected (i : Site) (f : SiteCounters → SiteCounters) (w : Work) : (w.modSiteCounters i f).corrected = w.corrected := rfl
@[simp] theorem Work.modSiteCounters_uncorrectable (i : Site) (f : SiteCounters → SiteCounters) (w : Work) : (w.modSiteCounters i f).uncorrectable = w.uncorrectable := rfl
@[simp] theorem Work.modSiteCounters_out (i : Site) (f : SiteCounters → SiteCounters) (w : Work) : (w.modSiteCounters i f).out = w.out := rfl
@[simp] theorem Work.modSiteCounters_parsers (i : Site) (f : SiteCounters → SiteCounters) (w : Work) : (w.modSiteCounters i f).parsers = w.parsers := rfl
@[simp] theorem Work.modSiteCounters_pages (i : Site) (f : SiteCounters → SiteCounters) (w : Work) : (w.modSiteCounters i f).pages = w.pages := rfl
@[simp] theorem Work.modSiteCounters_backlog (i : Site) (f : SiteCounters → SiteCounters) (w : Work) : (w.modSiteCounters i f).backlog = w.backlog := rfl
@[simp] theorem Work.modSiteCounters_images (i : Site) (f : SiteCounters → SiteCounters) (w : Work) : (w.modSiteCounters i f).images = w.images := rfl
@[simp] theorem Work.modSiteCounters_extents (i : Site) (f : SiteCounters → SiteCounters) (w : Work) : (w.modSiteCounters i f).extents = w.extents := rfl
@[simp] theorem Work.modSiteCounters_extentCount (i : Site) (f : SiteCounters → SiteCounters) (w : Work) : (w.modSiteCounters i f).extentCount = w.extentCount := rfl
@[simp] theorem Work.modSiteCounters_freeExtents (i : Site) (f : SiteCounters → SiteCounters) (w : Work) : (w.modSiteCounters i f).freeExtents = w.freeExtents := rfl
@[simp] theorem Work.modSiteCounters_used (i : Site) (f : SiteCounters → SiteCounters) (w : Work) : (w.modSiteCounters i f).used = w.used := rfl
@[simp] theorem Work.modSiteCounters_quota (i : Site) (f : SiteCounters → SiteCounters) (w : Work) : (w.modSiteCounters i f).quota = w.quota := rfl
@[simp] theorem Work.modSiteCounters_scrubPos (i : Site) (f : SiteCounters → SiteCounters) (w : Work) : (w.modSiteCounters i f).scrubPos = w.scrubPos := rfl
@[simp] theorem Work.modSiteCounters_editions (i : Site) (f : SiteCounters → SiteCounters) (w : Work) : (w.modSiteCounters i f).editions = w.editions := rfl
@[simp] theorem Work.modSiteCounters_titleHold (i : Site) (f : SiteCounters → SiteCounters) (w : Work) : (w.modSiteCounters i f).titleHold = w.titleHold := rfl
@[simp] theorem Work.modSiteCounters_clock (i : Site) (f : SiteCounters → SiteCounters) (w : Work) : (w.modSiteCounters i f).clock = w.clock := rfl
@[simp] theorem Work.modSiteCounters_deadlines (i : Site) (f : SiteCounters → SiteCounters) (w : Work) : (w.modSiteCounters i f).deadlines = w.deadlines := rfl
@[simp] theorem Work.modSiteCounters_armCounter (i : Site) (f : SiteCounters → SiteCounters) (w : Work) : (w.modSiteCounters i f).armCounter = w.armCounter := rfl
@[simp] theorem Work.modSiteCounters_slots (i : Site) (f : SiteCounters → SiteCounters) (w : Work) : (w.modSiteCounters i f).slots = w.slots := rfl
@[simp] theorem Work.modSiteCounters_holdings (i : Site) (f : SiteCounters → SiteCounters) (w : Work) : (w.modSiteCounters i f).holdings = w.holdings := rfl
@[simp] theorem Work.modSiteCounters_checks (i : Site) (f : SiteCounters → SiteCounters) (w : Work) : (w.modSiteCounters i f).checks = w.checks := rfl
@[simp] theorem Work.modSiteCounters_entries (i : Site) (f : SiteCounters → SiteCounters) (w : Work) : (w.modSiteCounters i f).entries = w.entries := rfl
@[simp] theorem Work.modSiteCounters_insertion (i : Site) (f : SiteCounters → SiteCounters) (w : Work) : (w.modSiteCounters i f).insertion = w.insertion := rfl
@[simp] theorem Work.modSiteCounters_arbiters (i : Site) (f : SiteCounters → SiteCounters) (w : Work) : (w.modSiteCounters i f).arbiters = w.arbiters := rfl
@[simp] theorem Work.modSiteCounters_wants (i : Site) (f : SiteCounters → SiteCounters) (w : Work) : (w.modSiteCounters i f).wants = w.wants := rfl
@[simp] theorem Work.modSiteCounters_engines (i : Site) (f : SiteCounters → SiteCounters) (w : Work) : (w.modSiteCounters i f).engines = w.engines := rfl
@[simp] theorem Work.modSiteCounters_quals (i : Site) (f : SiteCounters → SiteCounters) (w : Work) : (w.modSiteCounters i f).quals = w.quals := rfl

@[simp] theorem Work.setParser_errors (t : Title) (x : Parser) (w : Work) : (w.setParser t x).errors = w.errors := rfl
@[simp] theorem Work.setParser_attention (t : Title) (x : Parser) (w : Work) : (w.setParser t x).attention = w.attention := rfl
@[simp] theorem Work.setParser_corrected (t : Title) (x : Parser) (w : Work) : (w.setParser t x).corrected = w.corrected := rfl
@[simp] theorem Work.setParser_uncorrectable (t : Title) (x : Parser) (w : Work) : (w.setParser t x).uncorrectable = w.uncorrectable := rfl
@[simp] theorem Work.setParser_out (t : Title) (x : Parser) (w : Work) : (w.setParser t x).out = w.out := rfl
@[simp] theorem Work.setParser_pages (t : Title) (x : Parser) (w : Work) : (w.setParser t x).pages = w.pages := rfl
@[simp] theorem Work.setParser_backlog (t : Title) (x : Parser) (w : Work) : (w.setParser t x).backlog = w.backlog := rfl
@[simp] theorem Work.setParser_images (t : Title) (x : Parser) (w : Work) : (w.setParser t x).images = w.images := rfl
@[simp] theorem Work.setParser_extents (t : Title) (x : Parser) (w : Work) : (w.setParser t x).extents = w.extents := rfl
@[simp] theorem Work.setParser_extentCount (t : Title) (x : Parser) (w : Work) : (w.setParser t x).extentCount = w.extentCount := rfl
@[simp] theorem Work.setParser_freeExtents (t : Title) (x : Parser) (w : Work) : (w.setParser t x).freeExtents = w.freeExtents := rfl
@[simp] theorem Work.setParser_used (t : Title) (x : Parser) (w : Work) : (w.setParser t x).used = w.used := rfl
@[simp] theorem Work.setParser_quota (t : Title) (x : Parser) (w : Work) : (w.setParser t x).quota = w.quota := rfl
@[simp] theorem Work.setParser_scrubPos (t : Title) (x : Parser) (w : Work) : (w.setParser t x).scrubPos = w.scrubPos := rfl
@[simp] theorem Work.setParser_editions (t : Title) (x : Parser) (w : Work) : (w.setParser t x).editions = w.editions := rfl
@[simp] theorem Work.setParser_titleHold (t : Title) (x : Parser) (w : Work) : (w.setParser t x).titleHold = w.titleHold := rfl
@[simp] theorem Work.setParser_clock (t : Title) (x : Parser) (w : Work) : (w.setParser t x).clock = w.clock := rfl
@[simp] theorem Work.setParser_deadlines (t : Title) (x : Parser) (w : Work) : (w.setParser t x).deadlines = w.deadlines := rfl
@[simp] theorem Work.setParser_armCounter (t : Title) (x : Parser) (w : Work) : (w.setParser t x).armCounter = w.armCounter := rfl
@[simp] theorem Work.setParser_slots (t : Title) (x : Parser) (w : Work) : (w.setParser t x).slots = w.slots := rfl
@[simp] theorem Work.setParser_holdings (t : Title) (x : Parser) (w : Work) : (w.setParser t x).holdings = w.holdings := rfl
@[simp] theorem Work.setParser_checks (t : Title) (x : Parser) (w : Work) : (w.setParser t x).checks = w.checks := rfl
@[simp] theorem Work.setParser_entries (t : Title) (x : Parser) (w : Work) : (w.setParser t x).entries = w.entries := rfl
@[simp] theorem Work.setParser_insertion (t : Title) (x : Parser) (w : Work) : (w.setParser t x).insertion = w.insertion := rfl
@[simp] theorem Work.setParser_arbiters (t : Title) (x : Parser) (w : Work) : (w.setParser t x).arbiters = w.arbiters := rfl
@[simp] theorem Work.setParser_wants (t : Title) (x : Parser) (w : Work) : (w.setParser t x).wants = w.wants := rfl
@[simp] theorem Work.setParser_engines (t : Title) (x : Parser) (w : Work) : (w.setParser t x).engines = w.engines := rfl
@[simp] theorem Work.setParser_quals (t : Title) (x : Parser) (w : Work) : (w.setParser t x).quals = w.quals := rfl
@[simp] theorem Work.setParser_siteCounters (t : Title) (x : Parser) (w : Work) : (w.setParser t x).siteCounters = w.siteCounters := rfl

@[simp] theorem Work.setEntries_errors (es : List Entry) (w : Work) : (w.setEntries es).errors = w.errors := rfl
@[simp] theorem Work.setEntries_attention (es : List Entry) (w : Work) : (w.setEntries es).attention = w.attention := rfl
@[simp] theorem Work.setEntries_corrected (es : List Entry) (w : Work) : (w.setEntries es).corrected = w.corrected := rfl
@[simp] theorem Work.setEntries_uncorrectable (es : List Entry) (w : Work) : (w.setEntries es).uncorrectable = w.uncorrectable := rfl
@[simp] theorem Work.setEntries_out (es : List Entry) (w : Work) : (w.setEntries es).out = w.out := rfl
@[simp] theorem Work.setEntries_parsers (es : List Entry) (w : Work) : (w.setEntries es).parsers = w.parsers := rfl
@[simp] theorem Work.setEntries_pages (es : List Entry) (w : Work) : (w.setEntries es).pages = w.pages := rfl
@[simp] theorem Work.setEntries_backlog (es : List Entry) (w : Work) : (w.setEntries es).backlog = w.backlog := rfl
@[simp] theorem Work.setEntries_images (es : List Entry) (w : Work) : (w.setEntries es).images = w.images := rfl
@[simp] theorem Work.setEntries_extents (es : List Entry) (w : Work) : (w.setEntries es).extents = w.extents := rfl
@[simp] theorem Work.setEntries_extentCount (es : List Entry) (w : Work) : (w.setEntries es).extentCount = w.extentCount := rfl
@[simp] theorem Work.setEntries_freeExtents (es : List Entry) (w : Work) : (w.setEntries es).freeExtents = w.freeExtents := rfl
@[simp] theorem Work.setEntries_used (es : List Entry) (w : Work) : (w.setEntries es).used = w.used := rfl
@[simp] theorem Work.setEntries_quota (es : List Entry) (w : Work) : (w.setEntries es).quota = w.quota := rfl
@[simp] theorem Work.setEntries_scrubPos (es : List Entry) (w : Work) : (w.setEntries es).scrubPos = w.scrubPos := rfl
@[simp] theorem Work.setEntries_editions (es : List Entry) (w : Work) : (w.setEntries es).editions = w.editions := rfl
@[simp] theorem Work.setEntries_titleHold (es : List Entry) (w : Work) : (w.setEntries es).titleHold = w.titleHold := rfl
@[simp] theorem Work.setEntries_clock (es : List Entry) (w : Work) : (w.setEntries es).clock = w.clock := rfl
@[simp] theorem Work.setEntries_deadlines (es : List Entry) (w : Work) : (w.setEntries es).deadlines = w.deadlines := rfl
@[simp] theorem Work.setEntries_armCounter (es : List Entry) (w : Work) : (w.setEntries es).armCounter = w.armCounter := rfl
@[simp] theorem Work.setEntries_slots (es : List Entry) (w : Work) : (w.setEntries es).slots = w.slots := rfl
@[simp] theorem Work.setEntries_holdings (es : List Entry) (w : Work) : (w.setEntries es).holdings = w.holdings := rfl
@[simp] theorem Work.setEntries_checks (es : List Entry) (w : Work) : (w.setEntries es).checks = w.checks := rfl
@[simp] theorem Work.setEntries_insertion (es : List Entry) (w : Work) : (w.setEntries es).insertion = w.insertion := rfl
@[simp] theorem Work.setEntries_arbiters (es : List Entry) (w : Work) : (w.setEntries es).arbiters = w.arbiters := rfl
@[simp] theorem Work.setEntries_wants (es : List Entry) (w : Work) : (w.setEntries es).wants = w.wants := rfl
@[simp] theorem Work.setEntries_engines (es : List Entry) (w : Work) : (w.setEntries es).engines = w.engines := rfl
@[simp] theorem Work.setEntries_quals (es : List Entry) (w : Work) : (w.setEntries es).quals = w.quals := rfl
@[simp] theorem Work.setEntries_siteCounters (es : List Entry) (w : Work) : (w.setEntries es).siteCounters = w.siteCounters := rfl

@[simp] theorem Work.setHolding_errors (i : Site) (k : SlotNo) (g : Nat) (w : Work) : (w.setHolding i k g).errors = w.errors := rfl
@[simp] theorem Work.setHolding_attention (i : Site) (k : SlotNo) (g : Nat) (w : Work) : (w.setHolding i k g).attention = w.attention := rfl
@[simp] theorem Work.setHolding_corrected (i : Site) (k : SlotNo) (g : Nat) (w : Work) : (w.setHolding i k g).corrected = w.corrected := rfl
@[simp] theorem Work.setHolding_uncorrectable (i : Site) (k : SlotNo) (g : Nat) (w : Work) : (w.setHolding i k g).uncorrectable = w.uncorrectable := rfl
@[simp] theorem Work.setHolding_out (i : Site) (k : SlotNo) (g : Nat) (w : Work) : (w.setHolding i k g).out = w.out := rfl
@[simp] theorem Work.setHolding_parsers (i : Site) (k : SlotNo) (g : Nat) (w : Work) : (w.setHolding i k g).parsers = w.parsers := rfl
@[simp] theorem Work.setHolding_pages (i : Site) (k : SlotNo) (g : Nat) (w : Work) : (w.setHolding i k g).pages = w.pages := rfl
@[simp] theorem Work.setHolding_backlog (i : Site) (k : SlotNo) (g : Nat) (w : Work) : (w.setHolding i k g).backlog = w.backlog := rfl
@[simp] theorem Work.setHolding_images (i : Site) (k : SlotNo) (g : Nat) (w : Work) : (w.setHolding i k g).images = w.images := rfl
@[simp] theorem Work.setHolding_extents (i : Site) (k : SlotNo) (g : Nat) (w : Work) : (w.setHolding i k g).extents = w.extents := rfl
@[simp] theorem Work.setHolding_extentCount (i : Site) (k : SlotNo) (g : Nat) (w : Work) : (w.setHolding i k g).extentCount = w.extentCount := rfl
@[simp] theorem Work.setHolding_freeExtents (i : Site) (k : SlotNo) (g : Nat) (w : Work) : (w.setHolding i k g).freeExtents = w.freeExtents := rfl
@[simp] theorem Work.setHolding_used (i : Site) (k : SlotNo) (g : Nat) (w : Work) : (w.setHolding i k g).used = w.used := rfl
@[simp] theorem Work.setHolding_quota (i : Site) (k : SlotNo) (g : Nat) (w : Work) : (w.setHolding i k g).quota = w.quota := rfl
@[simp] theorem Work.setHolding_scrubPos (i : Site) (k : SlotNo) (g : Nat) (w : Work) : (w.setHolding i k g).scrubPos = w.scrubPos := rfl
@[simp] theorem Work.setHolding_editions (i : Site) (k : SlotNo) (g : Nat) (w : Work) : (w.setHolding i k g).editions = w.editions := rfl
@[simp] theorem Work.setHolding_titleHold (i : Site) (k : SlotNo) (g : Nat) (w : Work) : (w.setHolding i k g).titleHold = w.titleHold := rfl
@[simp] theorem Work.setHolding_clock (i : Site) (k : SlotNo) (g : Nat) (w : Work) : (w.setHolding i k g).clock = w.clock := rfl
@[simp] theorem Work.setHolding_deadlines (i : Site) (k : SlotNo) (g : Nat) (w : Work) : (w.setHolding i k g).deadlines = w.deadlines := rfl
@[simp] theorem Work.setHolding_armCounter (i : Site) (k : SlotNo) (g : Nat) (w : Work) : (w.setHolding i k g).armCounter = w.armCounter := rfl
@[simp] theorem Work.setHolding_slots (i : Site) (k : SlotNo) (g : Nat) (w : Work) : (w.setHolding i k g).slots = w.slots := rfl
@[simp] theorem Work.setHolding_checks (i : Site) (k : SlotNo) (g : Nat) (w : Work) : (w.setHolding i k g).checks = w.checks := rfl
@[simp] theorem Work.setHolding_entries (i : Site) (k : SlotNo) (g : Nat) (w : Work) : (w.setHolding i k g).entries = w.entries := rfl
@[simp] theorem Work.setHolding_insertion (i : Site) (k : SlotNo) (g : Nat) (w : Work) : (w.setHolding i k g).insertion = w.insertion := rfl
@[simp] theorem Work.setHolding_arbiters (i : Site) (k : SlotNo) (g : Nat) (w : Work) : (w.setHolding i k g).arbiters = w.arbiters := rfl
@[simp] theorem Work.setHolding_wants (i : Site) (k : SlotNo) (g : Nat) (w : Work) : (w.setHolding i k g).wants = w.wants := rfl
@[simp] theorem Work.setHolding_engines (i : Site) (k : SlotNo) (g : Nat) (w : Work) : (w.setHolding i k g).engines = w.engines := rfl
@[simp] theorem Work.setHolding_quals (i : Site) (k : SlotNo) (g : Nat) (w : Work) : (w.setHolding i k g).quals = w.quals := rfl
@[simp] theorem Work.setHolding_siteCounters (i : Site) (k : SlotNo) (g : Nat) (w : Work) : (w.setHolding i k g).siteCounters = w.siteCounters := rfl

@[simp] theorem Work.setCheck_errors (i : Site) (k : SlotNo) (r : CheckRec) (w : Work) : (w.setCheck i k r).errors = w.errors := rfl
@[simp] theorem Work.setCheck_attention (i : Site) (k : SlotNo) (r : CheckRec) (w : Work) : (w.setCheck i k r).attention = w.attention := rfl
@[simp] theorem Work.setCheck_corrected (i : Site) (k : SlotNo) (r : CheckRec) (w : Work) : (w.setCheck i k r).corrected = w.corrected := rfl
@[simp] theorem Work.setCheck_uncorrectable (i : Site) (k : SlotNo) (r : CheckRec) (w : Work) : (w.setCheck i k r).uncorrectable = w.uncorrectable := rfl
@[simp] theorem Work.setCheck_out (i : Site) (k : SlotNo) (r : CheckRec) (w : Work) : (w.setCheck i k r).out = w.out := rfl
@[simp] theorem Work.setCheck_parsers (i : Site) (k : SlotNo) (r : CheckRec) (w : Work) : (w.setCheck i k r).parsers = w.parsers := rfl
@[simp] theorem Work.setCheck_pages (i : Site) (k : SlotNo) (r : CheckRec) (w : Work) : (w.setCheck i k r).pages = w.pages := rfl
@[simp] theorem Work.setCheck_backlog (i : Site) (k : SlotNo) (r : CheckRec) (w : Work) : (w.setCheck i k r).backlog = w.backlog := rfl
@[simp] theorem Work.setCheck_images (i : Site) (k : SlotNo) (r : CheckRec) (w : Work) : (w.setCheck i k r).images = w.images := rfl
@[simp] theorem Work.setCheck_extents (i : Site) (k : SlotNo) (r : CheckRec) (w : Work) : (w.setCheck i k r).extents = w.extents := rfl
@[simp] theorem Work.setCheck_extentCount (i : Site) (k : SlotNo) (r : CheckRec) (w : Work) : (w.setCheck i k r).extentCount = w.extentCount := rfl
@[simp] theorem Work.setCheck_freeExtents (i : Site) (k : SlotNo) (r : CheckRec) (w : Work) : (w.setCheck i k r).freeExtents = w.freeExtents := rfl
@[simp] theorem Work.setCheck_used (i : Site) (k : SlotNo) (r : CheckRec) (w : Work) : (w.setCheck i k r).used = w.used := rfl
@[simp] theorem Work.setCheck_quota (i : Site) (k : SlotNo) (r : CheckRec) (w : Work) : (w.setCheck i k r).quota = w.quota := rfl
@[simp] theorem Work.setCheck_scrubPos (i : Site) (k : SlotNo) (r : CheckRec) (w : Work) : (w.setCheck i k r).scrubPos = w.scrubPos := rfl
@[simp] theorem Work.setCheck_editions (i : Site) (k : SlotNo) (r : CheckRec) (w : Work) : (w.setCheck i k r).editions = w.editions := rfl
@[simp] theorem Work.setCheck_titleHold (i : Site) (k : SlotNo) (r : CheckRec) (w : Work) : (w.setCheck i k r).titleHold = w.titleHold := rfl
@[simp] theorem Work.setCheck_clock (i : Site) (k : SlotNo) (r : CheckRec) (w : Work) : (w.setCheck i k r).clock = w.clock := rfl
@[simp] theorem Work.setCheck_deadlines (i : Site) (k : SlotNo) (r : CheckRec) (w : Work) : (w.setCheck i k r).deadlines = w.deadlines := rfl
@[simp] theorem Work.setCheck_armCounter (i : Site) (k : SlotNo) (r : CheckRec) (w : Work) : (w.setCheck i k r).armCounter = w.armCounter := rfl
@[simp] theorem Work.setCheck_slots (i : Site) (k : SlotNo) (r : CheckRec) (w : Work) : (w.setCheck i k r).slots = w.slots := rfl
@[simp] theorem Work.setCheck_holdings (i : Site) (k : SlotNo) (r : CheckRec) (w : Work) : (w.setCheck i k r).holdings = w.holdings := rfl
@[simp] theorem Work.setCheck_entries (i : Site) (k : SlotNo) (r : CheckRec) (w : Work) : (w.setCheck i k r).entries = w.entries := rfl
@[simp] theorem Work.setCheck_insertion (i : Site) (k : SlotNo) (r : CheckRec) (w : Work) : (w.setCheck i k r).insertion = w.insertion := rfl
@[simp] theorem Work.setCheck_arbiters (i : Site) (k : SlotNo) (r : CheckRec) (w : Work) : (w.setCheck i k r).arbiters = w.arbiters := rfl
@[simp] theorem Work.setCheck_wants (i : Site) (k : SlotNo) (r : CheckRec) (w : Work) : (w.setCheck i k r).wants = w.wants := rfl
@[simp] theorem Work.setCheck_engines (i : Site) (k : SlotNo) (r : CheckRec) (w : Work) : (w.setCheck i k r).engines = w.engines := rfl
@[simp] theorem Work.setCheck_quals (i : Site) (k : SlotNo) (r : CheckRec) (w : Work) : (w.setCheck i k r).quals = w.quals := rfl
@[simp] theorem Work.setCheck_siteCounters (i : Site) (k : SlotNo) (r : CheckRec) (w : Work) : (w.setCheck i k r).siteCounters = w.siteCounters := rfl

end Sys2Proof.Machine
end

