-- ==== Sys2Proof/Laws/Tables.lean ====
section
/-! SUPPORT. Reading a table after writing it: tables of fixed size, pairs for the two titles, image references, and the records of one
line, one site or one port. -/

namespace Sys2Proof.Machine

set_option Elab.async false

/-! ### Tables of fixed size -/

@[simp] theorem tget_tput_same {α : Type} {n : Nat} (v : Vector α n) (i : Fin n) (x : α) : tget (tput v i x) i = x := by
  simp [tget, tput]

theorem tget_tput_ne {α : Type} {n : Nat} (v : Vector α n) {i j : Fin n} (x : α) (h : j ≠ i) : tget (tput v i x) j = tget v j := by
  have : i.val ≠ j.val := fun e => h (Fin.ext e.symm)
  simp [tget, tput, this]

@[simp] theorem tget_tmod_same {α : Type} {n : Nat} (v : Vector α n) (i : Fin n) (f : α → α) : tget (tmod v i f) i = f (tget v i) := by
  simp [tmod]

theorem tget_tmod_ne {α : Type} {n : Nat} (v : Vector α n) {i j : Fin n} (f : α → α) (h : j ≠ i) : tget (tmod v i f) j = tget v j :=
  tget_tput_ne v _ h

@[simp] theorem tget_replicate {α : Type} {n : Nat} (x : α) (i : Fin n) : tget (Vector.replicate n x) i = x := by
  simp [tget]

@[simp] theorem tget_ofFn {α : Type} {n : Nat} (f : Fin n → α) (i : Fin n) : tget (Vector.ofFn f) i = f i := by
  simp [tget]

@[simp] theorem tget_map {α β : Type} {n : Nat} (f : α → β) (v : Vector α n) (i : Fin n) : tget (v.map f) i = f (tget v i) := by
  simp [tget]

/-- Two tables with the same entries are the same table. -/
theorem table_ext {α : Type} {n : Nat} {v w : Vector α n} (h : ∀ i, tget v i = tget w i) : v = w :=
  Vector.ext fun k hk => h ⟨k, hk⟩

@[simp] theorem tput_tget {α : Type} {n : Nat} (v : Vector α n) (i : Fin n) : tput v i (tget v i) = v := by
  apply table_ext; intro j
  by_cases h : j = i
  · subst h; simp
  · rw [tget_tput_ne _ _ h]

@[simp] theorem tput_tput {α : Type} {n : Nat} (v : Vector α n) (i : Fin n) (x y : α) : tput (tput v i x) i y = tput v i y := by
  simp [tput]

/-! ### Pairs for the titles -/

@[simp] theorem PerTitle.get_put_same {α : Type} (p : PerTitle α) (t : Title) (x : α) : (p.put t x).get t = x := by
  cases t <;> rfl

theorem PerTitle.get_put_ne {α : Type} (p : PerTitle α) {t u : Title} (x : α) (h : u ≠ t) : (p.put t x).get u = p.get u := by
  cases t <;> cases u <;> first | rfl | exact absurd rfl h

@[simp] theorem PerTitle.put_get {α : Type} (p : PerTitle α) (t : Title) : p.put t (p.get t) = p := by
  cases t <;> rfl

@[simp] theorem PerTitle.put_put {α : Type} (p : PerTitle α) (t : Title) (x y : α) : (p.put t x).put t y = p.put t y := by
  cases t <;> rfl

theorem PerTitle.ext' {α : Type} {p q : PerTitle α} (h : ∀ t, p.get t = q.get t) : p = q := by
  have ha := h .a
  have hb := h .b
  cases p; cases q; simp_all [PerTitle.get]

/-! ### Image references -/

@[simp] theorem ImageRefs.get_put_same (r : ImageRefs) (p : Sep) (x : Option Nat) : (r.put p x).get p = x := by
  cases p <;> rfl

theorem ImageRefs.get_put_ne (r : ImageRefs) {p q : Sep} (x : Option Nat) (h : q ≠ p) : (r.put p x).get q = r.get q := by
  cases p <;> cases q <;> first | rfl | exact absurd rfl h

/-! ### The records of a line, a site and a port -/

@[simp] theorem Work.engine_setEngine_same (w : Work) (i : Site) (e : Engine) : (w.setEngine i e).engine i = e :=
  tget_tput_same _ _ _

theorem Work.engine_setEngine_ne (w : Work) {i j : Site} (e : Engine) (h : j ≠ i) : (w.setEngine i e).engine j = w.engine j :=
  tget_tput_ne _ _ h

@[simp] theorem Work.engine_modEngine_same (w : Work) (i : Site) (f : Engine → Engine) :
    (w.modEngine i f).engine i = f (w.engine i) :=
  tget_tput_same _ _ _

theorem Work.engine_modEngine_ne (w : Work) {i j : Site} (f : Engine → Engine) (h : j ≠ i) :
    (w.modEngine i f).engine j = w.engine j :=
  tget_tput_ne _ _ h

@[simp] theorem Work.qual_setQual_same (w : Work) (i : Site) (q : Qualifier) : (w.setQual i q).qual i = q := tget_tput_same _ _ _

theorem Work.qual_setQual_ne (w : Work) {i j : Site} (q : Qualifier) (h : j ≠ i) : (w.setQual i q).qual j = w.qual j :=
  tget_tput_ne _ _ h

@[simp] theorem Work.qual_modQual_same (w : Work) (i : Site) (f : Qualifier → Qualifier) : (w.modQual i f).qual i = f (w.qual i) :=
  tget_tput_same _ _ _

theorem Work.qual_modQual_ne (w : Work) {i j : Site} (f : Qualifier → Qualifier) (h : j ≠ i) : (w.modQual i f).qual j = w.qual j :=
  tget_tput_ne _ _ h

@[simp] theorem Work.parser_setParser_same (w : Work) (t : Title) (p : Parser) : (w.setParser t p).parser t = p :=
  PerTitle.get_put_same _ _ _

theorem Work.parser_setParser_ne (w : Work) {t u : Title} (p : Parser) (h : u ≠ t) : (w.setParser t p).parser u = w.parser u :=
  PerTitle.get_put_ne _ _ h

@[simp] theorem Work.holding_setHolding_same (w : Work) (i : Site) (k : SlotNo) (g : Nat) : (w.setHolding i k g).holding i k = g := by
  simp [Work.holding, Work.setHolding]

@[simp] theorem Work.check_setCheck_same (w : Work) (i : Site) (k : SlotNo) (r : CheckRec) : (w.setCheck i k r).check i k = r := by
  simp [Work.check, Work.setCheck]

@[simp] theorem Work.outOf_setOut_same (w : Work) (p : PortId) (o : Outbox) : (w.setOut p o).outOf p = o := by
  rcases p with (_ | _) | _ <;> rfl

theorem Work.outOf_setOut_ne (w : Work) {p q : PortId} (o : Outbox) (h : q ≠ p) : (w.setOut p o).outOf q = w.outOf q := by
  rcases p with (_ | _) | _ <;> rcases q with (_ | _) | _ <;> first | rfl | exact absurd rfl h

@[simp] theorem Work.outOf_raiseError (w : Work) (f : ErrorReport → ErrorReport) (p : PortId) : (w.raiseError f).outOf p = w.outOf p := by
  rcases p with (_ | _) | _ <;> rfl

/-- What the outbound sides hold depends on them alone. -/
theorem Work.outOf_congr {v w : Work} (h : w.out = v.out) (p : PortId) : w.outOf p = v.outOf p := by
  rcases p with (_ | _) | _ <;> simp [Work.outOf, h]

/-! ### Folds -/

/-- A property every element's change keeps is kept by the whole fold. -/
theorem Work.each_induct {α : Type} {P : Work → Prop} (f : α → Work → Work) (xs : List α) (w : Work) (h : P w)
    (hf : ∀ x ∈ xs, ∀ w, P w → P (f x w)) : P (w.each f xs) := by
  unfold Work.each
  induction xs generalizing w with
  | nil => exact h
  | cons x xs ih => exact ih (f x w) (hf x List.mem_cons_self w h) fun y hy => hf y (List.mem_cons_of_mem _ hy)

@[simp] theorem Work.each_nil {α : Type} (f : α → Work → Work) (w : Work) : w.each f [] = w := rfl

@[simp] theorem Work.each_cons {α : Type} (f : α → Work → Work) (x : α) (xs : List α) (w : Work) :
    w.each f (x :: xs) = (f x w).each f xs := rfl

end Sys2Proof.Machine
end

