-- ==== Sys2Proof/Laws/Within.lean ====
section
/-! SUPPORT. What an operation of the working state can touch, said once for each operation: `Within T v w` holds of what came of v when
only the lines and records `T` names were touched, the notice queues stayed within their limit, and the dispatch pool and the extent pool
stayed sound. Every operation is a chain of updates, and each lemma adds one link to a chain: from `Within T v w` to `Within T v (op w)`. -/

namespace Sys2Proof.Machine

set_option Elab.async false

/-- What may be touched: the transfer machines of some lines, the other records of some sites (qualifier, service counters, title arbiter,
holdings, colour check records), the target slots, the clock, the title-wide holds, the parsers, the scrub position. -/
structure Touch where
  engine : Site → Prop
  line : Site → Prop
  slots : Prop
  clock : Prop
  holds : Prop
  parsers : Prop
  scrub : Prop

/-- `w` came of `v` touching nothing outside `T`. -/
structure Within (T : Touch) (v w : Work) : Prop where
  engine : ∀ i, ¬T.engine i → w.engine i = v.engine i
  qual : ∀ i, ¬T.line i → w.qual i = v.qual i
  counters : ∀ i, ¬T.line i → tget w.siteCounters i = tget v.siteCounters i
  arbiter : ∀ i, ¬T.line i → tget w.arbiters i = tget v.arbiters i
  holding : ∀ i, ¬T.line i → tget w.holdings i = tget v.holdings i
  check : ∀ i, ¬T.line i → tget w.checks i = tget v.checks i
  slots : ¬T.slots → w.slots = v.slots
  clock : ¬T.clock → w.clock = v.clock
  holds : ¬T.holds → w.titleHold = v.titleHold
  parsers : ¬T.parsers → w.parsers = v.parsers
  scrub : ¬T.scrub → w.scrubPos = v.scrubPos
  extentCount : w.extentCount = v.extentCount
  quota : w.quota = v.quota
  bounded : NoticesBounded v → NoticesBounded w
  pool : PoolSound v → PoolSound w
  store : StoreSound v → StoreSound w
  pages : PagesSound v → PagesSound w

variable {T : Touch} {v w : Work}

theorem Within.refl (T : Touch) (w : Work) : Within T w w :=
  ⟨fun _ _ => rfl, fun _ _ => rfl, fun _ _ => rfl, fun _ _ => rfl, fun _ _ => rfl, fun _ _ => rfl, fun _ => rfl, fun _ => rfl,
    fun _ => rfl, fun _ => rfl, fun _ => rfl, rfl, rfl, id, id, id, id⟩

/-- One more update at the end of a chain; what is not said is kept as it is. -/
theorem Within.upd {u : Work} (h : Within T v w)
    (engine : ∀ i, ¬T.engine i → u.engine i = w.engine i := by exact fun _ _ => rfl)
    (qual : ∀ i, ¬T.line i → u.qual i = w.qual i := by exact fun _ _ => rfl)
    (counters : ∀ i, ¬T.line i → tget u.siteCounters i = tget w.siteCounters i := by exact fun _ _ => rfl)
    (arbiter : ∀ i, ¬T.line i → tget u.arbiters i = tget w.arbiters i := by exact fun _ _ => rfl)
    (holding : ∀ i, ¬T.line i → tget u.holdings i = tget w.holdings i := by exact fun _ _ => rfl)
    (check : ∀ i, ¬T.line i → tget u.checks i = tget w.checks i := by exact fun _ _ => rfl)
    (slots : ¬T.slots → u.slots = w.slots := by exact fun _ => rfl)
    (clock : ¬T.clock → u.clock = w.clock := by exact fun _ => rfl)
    (holds : ¬T.holds → u.titleHold = w.titleHold := by exact fun _ => rfl)
    (parsers : ¬T.parsers → u.parsers = w.parsers := by exact fun _ => rfl)
    (scrub : ¬T.scrub → u.scrubPos = w.scrubPos := by exact fun _ => rfl)
    (extentCount : u.extentCount = w.extentCount := by rfl)
    (quota : u.quota = w.quota := by rfl)
    (bounded : NoticesBounded w → NoticesBounded u := by exact fun h => h)
    (pool : PoolSound w → PoolSound u := by exact fun h => h)
    (store : StoreSound w → StoreSound u := by exact fun h => h)
    (pages : PagesSound w → PagesSound u := by exact fun h => h) : Within T v u :=
  ⟨fun i hi => (engine i hi).trans (h.engine i hi), fun i hi => (qual i hi).trans (h.qual i hi),
    fun i hi => (counters i hi).trans (h.counters i hi), fun i hi => (arbiter i hi).trans (h.arbiter i hi),
    fun i hi => (holding i hi).trans (h.holding i hi), fun i hi => (check i hi).trans (h.check i hi),
    fun hi => (slots hi).trans (h.slots hi), fun hi => (clock hi).trans (h.clock hi), fun hi => (holds hi).trans (h.holds hi),
    fun hi => (parsers hi).trans (h.parsers hi), fun hi => (scrub hi).trans (h.scrub hi), extentCount.trans h.extentCount,
    quota.trans h.quota, fun hb => bounded (h.bounded hb), fun hb => pool (h.pool hb), fun hb => store (h.store hb),
    fun hb => pages (h.pages hb)⟩

theorem Within.trans {u : Work} (h : Within T v w) (g : Within T w u) : Within T v u :=
  h.upd g.engine g.qual g.counters g.arbiter g.holding g.check g.slots g.clock g.holds g.parsers g.scrub g.extentCount g.quota
    g.bounded g.pool g.store g.pages

/-- A fold whose every link stays within `T` stays within `T`. -/
theorem Within.each {α : Type} {f : α → Work → Work} {xs : List α} (hf : ∀ x ∈ xs, ∀ w, Within T v w → Within T v (f x w))
    (h : Within T v w) : Within T v (w.each f xs) :=
  Work.each_induct f xs w h hf

/-! ### Notices and service flags -/

@[simp] theorem Within.raiseError (f : ErrorReport → ErrorReport) (h : Within T v w) : Within T v (w.raiseError f) := h.upd

/-- An outbox put in place, when it holds no more records than a notice queue may. -/
theorem Within.setOut (p : PortId) (o : Outbox) (ho : NoticesBounded w → o.queue.length ≤ noticeLimit) (h : Within T v w) :
    Within T v (w.setOut p o) := by
  have hb : NoticesBounded w → NoticesBounded (w.setOut p o) := fun hw q => by
    by_cases hq : q = p
    · subst hq; simpa using ho hw
    · rw [Work.outOf_setOut_ne w o hq]; exact hw q
  refine h.upd (bounded := hb) (engine := fun _ _ => ?_) (qual := fun _ _ => ?_) (counters := fun _ _ => ?_)
    (arbiter := fun _ _ => ?_) (holding := fun _ _ => ?_) (check := fun _ _ => ?_) (slots := fun _ => ?_) (clock := fun _ => ?_)
    (holds := fun _ => ?_) (parsers := fun _ => ?_) (scrub := fun _ => ?_) (extentCount := ?_) (quota := ?_)
    (pool := fun h => ?_) (store := fun h => ?_) (pages := fun h => ?_)
  all_goals first
    | simp [Work.engine, Work.qual]
    | simpa [PoolSound] using h
    | simpa [StoreSound] using h
    | simpa [PagesSound] using h

@[simp] theorem Within.notify (p : PortId) (n : Notice) (h : Within T v w) : Within T v (w.notify p n) := by
  unfold Work.notify
  dsimp only
  split
  · rename_i hl
    exact h.setOut _ _ fun _ => by simp only [List.length_append, List.length_cons, List.length_nil]; exact hl
  · exact (h.setOut p { w.outOf p with lost := true } fun hb => hb p).raiseError _

@[simp] theorem Within.toTitle (t : Title) (n : Notice) (h : Within T v w) : Within T v (w.toTitle t n) := h.notify _ _

@[simp] theorem Within.toDesk (n : Notice) (h : Within T v w) : Within T v (w.toDesk n) := h.notify _ _

/-! ### One line's records -/

@[simp] theorem Within.setEngine {i : Site} (hi : T.engine i) (e : Engine) (h : Within T v w) : Within T v (w.setEngine i e) :=
  h.upd (engine := fun _ hj => Work.engine_setEngine_ne w e fun hij => hj (hij ▸ hi))

@[simp] theorem Within.modEngine {i : Site} (hi : T.engine i) (f : Engine → Engine) (h : Within T v w) : Within T v (w.modEngine i f) :=
  h.setEngine hi _

@[simp] theorem Within.setQual {i : Site} (hi : T.line i) (q : Qualifier) (h : Within T v w) : Within T v (w.setQual i q) :=
  h.upd (qual := fun _ hj => Work.qual_setQual_ne w q fun hij => hj (hij ▸ hi))

@[simp] theorem Within.modQual {i : Site} (hi : T.line i) (f : Qualifier → Qualifier) (h : Within T v w) : Within T v (w.modQual i f) :=
  h.setQual hi _

@[simp] theorem Within.modSiteCounters {i : Site} (hi : T.line i) (f : SiteCounters → SiteCounters) (h : Within T v w) :
    Within T v (w.modSiteCounters i f) :=
  h.upd (counters := fun _ hj => tget_tmod_ne _ _ fun hij => hj (hij ▸ hi))

theorem Within.setArbiter {i : Site} (hi : T.line i) (x : Option Title) (h : Within T v w) :
    Within T v { w with arbiters := tput w.arbiters i x } :=
  h.upd (arbiter := fun _ hj => tget_tput_ne _ _ fun hij => hj (hij ▸ hi))

@[simp] theorem Within.setHolding {i : Site} (hi : T.line i) (k : SlotNo) (g : Nat) (h : Within T v w) : Within T v (w.setHolding i k g) :=
  h.upd (holding := fun _ hj => tget_tmod_ne _ _ fun hij => hj (hij ▸ hi))

@[simp] theorem Within.setCheck {i : Site} (hi : T.line i) (k : SlotNo) (r : CheckRec) (h : Within T v w) :
    Within T v (w.setCheck i k r) :=
  h.upd (check := fun _ hj => tget_tmod_ne _ _ fun hij => hj (hij ▸ hi))

@[simp] theorem Within.setParser (ht : T.parsers) (t : Title) (p : Parser) (h : Within T v w) : Within T v (w.setParser t p) :=
  h.upd (parsers := fun hn => absurd ht hn)

/-! ### Image Store -/

@[simp] theorem Within.modImage (id : Nat) (f : ImageRec → ImageRec) (h : Within T v w) : Within T v (w.modImage id f) := h.upd

theorem Within.takeImage {key : PageKey} {sep : Sep} {version bands id : Nat} {u : Work}
    (hu : w.takeImage key sep version bands = some (id, u)) (h : Within T v w) : Within T v u := by
  unfold Work.takeImage at hu
  split at hu
  · cases hu
  · cases hu; exact h.upd

/-- A part of a sound extent pool with the rest returned is sound. -/
theorem StoreSound.filter {w u : Work} (p : Extent → Bool) (h : StoreSound w) (hx : u.extents = w.extents.filter p)
    (hf : u.freeExtents = w.freeExtents + (w.extents.filter (fun e => !p e)).length) (hc : u.extentCount = w.extentCount) :
    StoreSound u := by
  obtain ⟨hn, hb, ht⟩ := h
  have hl := List.length_eq_countP_add_countP p (l := w.extents)
  simp only [List.countP_eq_length_filter, Bool.not_eq_true, Bool.decide_eq_false] at hl
  refine ⟨?_, ?_, ?_⟩
  · rw [hx]; exact hn.sublist (List.filter_sublist.map _)
  · intro e he; rw [hx] at he; rw [hc]; exact hb e (List.mem_filter.mp he).1
  · rw [hf, hx, hc]; omega

@[simp] theorem Within.freeImage (id : Nat) (h : Within T v w) : Within T v (w.freeImage id) := by
  unfold Work.freeImage
  split
  · exact h
  · refine h.upd (store := fun hs => hs.filter (fun e => e.holder != id) rfl ?_ rfl)
    simp [bne]

@[simp] theorem Within.raiseImage (id : Nat) (h : Within T v w) : Within T v (w.raiseImage id) := h.modImage _ _

@[simp] theorem Within.lowerImage (id : Nat) (h : Within T v w) : Within T v (w.lowerImage id) := by
  unfold Work.lowerImage
  repeat' split
  all_goals simp (maxDischargeDepth := 20) [h]

@[simp] theorem Within.lowerRefs (refs : ImageRefs) (h : Within T v w) : Within T v (w.lowerRefs refs) :=
  Within.each (fun _ _ _ hw => hw.lowerImage _) h

@[simp] theorem Within.sealImage (id : Nat) (h : Within T v w) : Within T v (w.sealImage id) := h.modImage _ _

theorem firstFree_some {taken : Nat → Bool} {tries k n : Nat} (h : firstFree taken tries k = some n) :
    taken n = false ∧ k ≤ n ∧ n < k + tries := by
  induction tries generalizing k with
  | zero => cases h
  | succ tries ih =>
    simp only [firstFree] at h
    split at h
    · have := ih h
      exact ⟨this.1, by omega, by omega⟩
    · rename_i ht; cases h; simp at ht; exact ⟨ht, Nat.le_refl _, by omega⟩

/-- Different numbers below a bound, one number below it missing: there are fewer than the bound. -/
theorem length_lt_of_missing {l : List Nat} {n c : Nat} (hn : l.Nodup) (hb : ∀ x ∈ l, x < c) (hm : n ∉ l) (hc : n < c) : l.length < c := by
  have hl : (n :: l).length ≤ (List.range c).length :=
    List.Nodup.length_le_of_subset (List.nodup_cons.mpr ⟨hm, hn⟩) fun x hx => by
      rcases List.mem_cons.mp hx with rfl | hx
      · exact List.mem_range.mpr hc
      · exact List.mem_range.mpr (hb x hx)
  simp only [List.length_cons, List.length_range] at hl
  omega

theorem lowestExtent_some {n : Nat} (h : w.lowestExtent = some n) : n < w.extentCount ∧ n ∉ w.extents.map Extent.number := by
  have := firstFree_some h
  refine ⟨by omega, ?_⟩
  simpa using this.1

/-- Extents changed one by one without a new number keep the pool sound. -/
theorem StoreSound.map {u : Work} (f : Extent → Extent) (hf : ∀ e, (f e).number = e.number) (hx : u.extents = w.extents.map f)
    (hfree : u.freeExtents = w.freeExtents) (hc : u.extentCount = w.extentCount) (h : StoreSound w) : StoreSound u := by
  obtain ⟨hn, hb, ht⟩ := h
  have hm : u.extents.map Extent.number = w.extents.map Extent.number := by
    rw [hx, List.map_map]; exact List.map_congr_left fun e _ => hf e
  refine ⟨hm ▸ hn, fun e hu => ?_, by rw [hfree, hx, hc, List.length_map]; exact ht⟩
  rw [hx] at hu
  obtain ⟨x, hxm, rfl⟩ := List.mem_map.mp hu
  rw [hf, hc]; exact hb x hxm

/-- A free extent claimed, and the extents held before changed without a new number, keep the pool sound. -/
theorem StoreSound.claim {u : Work} {n : Nat} (f : Extent → Extent) (hfn : ∀ e, (f e).number = e.number) (x : Extent) (hn : x.number = n)
    (hs : w.lowestExtent = some n) (hx : u.extents = w.extents.map f ++ [x]) (hf : u.freeExtents = w.freeExtents - 1)
    (hc : u.extentCount = w.extentCount) (h : StoreSound w) : StoreSound u := by
  obtain ⟨hd, hb, ht⟩ := h
  obtain ⟨hlt, hnot⟩ := lowestExtent_some hs
  have hlen : w.extents.length < w.extentCount := by
    have := length_lt_of_missing hd (fun y hy => by
      obtain ⟨e, he, rfl⟩ := List.mem_map.mp hy
      exact hb e he) hnot hlt
    simpa using this
  have hm : (w.extents.map f).map Extent.number = w.extents.map Extent.number := by
    rw [List.map_map]; exact List.map_congr_left fun e _ => hfn e
  refine ⟨?_, fun e he => ?_, ?_⟩
  · rw [hx, List.map_append, hm, List.nodup_append]
    refine ⟨hd, by simp, fun y hy z hz => ?_⟩
    simp only [List.map_cons, List.map_nil, List.mem_singleton] at hz
    rintro rfl
    exact hnot (by rwa [hz, hn] at hy)
  · rw [hx] at he
    rw [hc]
    rcases List.mem_append.mp he with he | he
    · obtain ⟨y, hy, rfl⟩ := List.mem_map.mp he
      rw [hfn]; exact hb y hy
    · rw [List.mem_singleton.mp he, hn]; exact hlt
  · rw [hf, hx, hc, List.length_append, List.length_map]
    simp only [List.length_cons, List.length_nil]
    omega

/-- A band placed, or an image gone into OVERRUN, keeps the pool sound. -/
theorem StoreSound.placeBand (id i size : Nat) (h : StoreSound w) : StoreSound (w.placeBand id i size).1 := by
  unfold Work.placeBand
  split
  · exact h
  · split
    · exact h.map _ (fun x => by split <;> rfl) rfl rfl rfl
    · split
      · exact h
      · rename_i r _ _ _ n hs
        have hl : w.lowestExtent = some n := by
          split at hs
          · exact hs
          · cases hs
        exact h.claim _ (fun x => by split <;> rfl) _ rfl hl rfl rfl rfl

/-- A band placed touches nothing outside the Image Store. -/
theorem Within.placeBand (id i size : Nat) (h : Within T v w) : Within T v (w.placeBand id i size).1 := by
  have hs := fun hw : StoreSound w => hw.placeBand id i size
  revert hs
  unfold Work.placeBand
  repeat' split
  all_goals intro hs
  all_goals first
    | exact h
    | exact h.upd (store := hs)

/-! ### Edition Unit -/

@[simp] theorem Within.modEdition (t : Title) (code : Nat) (f : EditionRec → EditionRec) (h : Within T v w) :
    Within T v (w.modEdition t code f) := h.upd

@[simp] theorem Within.setEditionSite (t : Title) (code : Nat) (s : Site) (x : Option EditionSite) (h : Within T v w) :
    Within T v (w.setEditionSite t code s x) := h.modEdition _ _ _

@[simp] theorem Within.modEditionSite (t : Title) (code : Nat) (s : Site) (f : EditionSite → EditionSite) (h : Within T v w) :
    Within T v (w.modEditionSite t code s f) := h.modEdition _ _ _

@[simp] theorem Within.disarm (t : Title) (code : Nat) (s : Site) (h : Within T v w) : Within T v (w.disarm t code s) := h.upd

/-- Entries changed one by one without a new number keep the dispatch pool sound. -/
theorem PoolSound.map {u : Work} (f : Entry → Entry) (hf : ∀ e, (f e).number = e.number) (he : u.entries = w.entries.map f)
    (h : PoolSound w) : PoolSound u := by
  obtain ⟨hn, hb⟩ := h
  have hm : u.entries.map Entry.number = w.entries.map Entry.number := by
    rw [he, List.map_map]; exact List.map_congr_left fun e _ => hf e
  refine ⟨hm ▸ hn, fun e hu => ?_⟩
  rw [he] at hu
  obtain ⟨x, hx, rfl⟩ := List.mem_map.mp hu
  rw [hf]; exact hb x hx

@[simp] theorem Within.setLateFlags (t : Title) (code : Nat) (s : Site) (late : Bool) (h : Within T v w) :
    Within T v (w.setLateFlags t code s late) :=
  h.upd (pool := PoolSound.map _ (fun e => by split <;> rfl) rfl)

@[simp] theorem Within.becomeLate (t : Title) (code : Nat) (s : Site) (h : Within T v w) : Within T v (w.becomeLate t code s) := by
  unfold Work.becomeLate
  split <;> simp (maxDischargeDepth := 20) [h]

@[simp] theorem Within.expireCutoff (t : Title) (code : Nat) (s : Site) (h : Within T v w) : Within T v (w.expireCutoff t code s) :=
  (h.disarm t code s).becomeLate t code s

@[simp] theorem Within.arm (t : Title) (code : Nat) (s : Site) (cutoff : Nat) (h : Within T v w) : Within T v (w.arm t code s cutoff) := by
  unfold Work.arm
  dsimp only
  split
  · exact Within.expireCutoff _ _ _ h.upd
  · exact h.upd

@[simp] theorem Within.moveDeadline (t : Title) (code : Nat) (s : Site) (cutoff : Nat) (h : Within T v w) :
    Within T v (w.moveDeadline t code s cutoff) := by
  unfold Work.moveDeadline
  dsimp only
  split
  · exact Within.expireCutoff _ _ _ h.upd
  · exact h.upd

@[simp] theorem Within.expirePassed (h : Within T v w) : Within T v w.expirePassed :=
  Within.each (fun _ _ _ hw => hw.expireCutoff _ _ _) h

@[simp] theorem Within.expireFirst (h : Within T v w) : Within T v w.expireFirst := by
  unfold Work.expireFirst
  repeat' split
  all_goals simp (maxDischargeDepth := 20) [h]

@[simp] theorem Within.gainReadiness (t : Title) (code : Nat) (s : Site) (h : Within T v w) : Within T v (w.gainReadiness t code s) := by
  unfold Work.gainReadiness
  repeat' split
  all_goals simp (maxDischargeDepth := 20) [h]

@[simp] theorem Within.loseReadiness (t : Title) (code : Nat) (s : Site) (h : Within T v w) : Within T v (w.loseReadiness t code s) := by
  unfold Work.loseReadiness
  dsimp only
  repeat' split
  all_goals simp (maxDischargeDepth := 20) [h]

@[simp] theorem Within.evaluateReadiness (t : Title) (code : Nat) (s : Site) (h : Within T v w) :
    Within T v (w.evaluateReadiness t code s) :=
  (h.gainReadiness t code s).loseReadiness t code s

@[simp] theorem Within.pageJoins (t : Title) (code : Nat) (s : Site) (h : Within T v w) : Within T v (w.pageJoins t code s) :=
  (h.modEditionSite t code s _).gainReadiness t code s

@[simp] theorem Within.pageLeaves (t : Title) (code : Nat) (s : Site) (h : Within T v w) : Within T v (w.pageLeaves t code s) :=
  (h.modEditionSite t code s _).loseReadiness t code s

@[simp] theorem Within.freeEdition (t : Title) (code : Nat) (h : Within T v w) : Within T v (w.freeEdition t code) := by
  unfold Work.freeEdition
  split
  · exact Within.toTitle _ _ h.upd
  · exact h

end Sys2Proof.Machine
end

