-- ==== Sys2Proof/Laws/WithinQueues.lean ====
section
/-! SUPPORT. What the operations of the Dispatch Scheduler, the Release Table and the admission touch (Laws/Within.lean). -/

namespace Sys2Proof.Machine

set_option Elab.async false

variable {T : Touch} {v w : Work}

/-! ### Dispatch Scheduler -/

theorem Entry.withTargetDeadline_number (es : List Entry) (e : Entry) : (e.withTargetDeadline es).number = e.number := by
  unfold Entry.withTargetDeadline
  repeat' split
  all_goals rfl

/-- Entries put in place whose numbers are sound keep the pool sound. -/
theorem Within.setEntries {es : List Entry} (hn : PoolSound w → (es.map Entry.number).Nodup ∧ ∀ e ∈ es, e.number < dispatchLimit)
    (h : Within T v w) : Within T v (w.setEntries es) := by
  refine h.upd (pool := fun hw => ?_)
  have hm : (es.map (Entry.withTargetDeadline es)).map Entry.number = es.map Entry.number := by
    rw [List.map_map]; exact List.map_congr_left fun e _ => Entry.withTargetDeadline_number es e
  refine ⟨?_, fun e he => ?_⟩
  · show ((es.map _).map _).Nodup
    rw [hm]; exact (hn hw).1
  · obtain ⟨x, hx, rfl⟩ := List.mem_map.mp (show e ∈ es.map _ from he)
    rw [Entry.withTargetDeadline_number]
    exact (hn hw).2 x hx

theorem Within.modEntries (p : Entry → Bool) {f : Entry → Entry} (hf : ∀ e, (f e).number = e.number) (h : Within T v w) :
    Within T v (w.modEntries p f) := by
  refine Within.setEntries (fun hw => ?_) h
  have hm : (w.entries.map (fun e => if p e then f e else e)).map Entry.number = w.entries.map Entry.number := by
    rw [List.map_map]
    refine List.map_congr_left fun e _ => ?_
    simp only [Function.comp]
    split
    · exact hf e
    · rfl
  refine ⟨hm ▸ hw.1, fun e he => ?_⟩
  obtain ⟨x, hx, rfl⟩ := List.mem_map.mp he
  split
  · rw [hf]; exact hw.2 x hx
  · exact hw.2 x hx

theorem Within.modEntry (n : Nat) {f : Entry → Entry} (hf : ∀ e, (f e).number = e.number) (h : Within T v w) :
    Within T v (w.modEntry n f) := h.modEntries _ hf

@[simp] theorem Within.regate (p : Entry → Bool) (f : Entry → Gates) (h : Within T v w) : Within T v (w.regate p f) :=
  h.modEntries _ fun _ => by rfl

@[simp] theorem Within.createEntry (e : Entry) (h : Within T v w) : Within T v (w.createEntry e) := by
  unfold Work.createEntry
  split
  · exact h
  · rename_i n hn
    obtain ⟨hfree, -, hlt⟩ := firstFree_some hn
    have hset : Within T v (w.setEntries (w.entries ++ [{ e with number := n, seq := w.insertion }])) :=
      Within.setEntries (fun hw => by
        refine ⟨?_, fun x hx => ?_⟩
        · rw [List.map_append, List.nodup_append]
          refine ⟨hw.1, by simp, fun y hy z hz => ?_⟩
          simp only [List.map_cons, List.map_nil, List.mem_singleton] at hz
          subst hz
          rintro rfl
          obtain ⟨x, hx, hxn⟩ := List.mem_map.mp hy
          simp only [List.any_eq_false, beq_iff_eq] at hfree
          exact hfree x hx hxn
        · rcases List.mem_append.mp hx with hx | hx
          · exact hw.2 x hx
          · rw [List.mem_singleton.mp hx]; simpa using hlt) h
    exact hset.upd

@[simp] theorem Within.createTarget (s : Site) (k : SlotNo) (h : Within T v w) : Within T v (w.createTarget s k) := h.createEntry _

@[simp] theorem Within.createWithdraw (s : Site) (key : PageKey) (n : Nat) (h : Within T v w) : Within T v (w.createWithdraw s key n) :=
  h.createEntry _

@[simp] theorem Within.createPlate (s : Site) (key : PageKey) (r : Released) (sep : Sep) (id : Nat) (h : Within T v w) :
    Within T v (w.createPlate s key r sep id) := by
  unfold Work.createPlate
  dsimp only
  split
  · exact (h.createEntry _).raiseImage _
  · exact h

@[simp] theorem Within.markWant (s : Site) (k : SlotNo) (h : Within T v w) : Within T v (w.markWant s k) := by
  unfold Work.markWant
  split
  · exact h
  · exact h.upd

@[simp] theorem Within.lookWant (m : LookMode) (s : Site) (k : SlotNo) (h : Within T v w) : Within T v (w.lookWant m s k) := by
  unfold Work.lookWant
  repeat' split
  all_goals simp [h]

theorem Within.serveWants (xs : List (Site × SlotNo)) (h : Within T v w) : Within T v (serveWants xs w) := by
  induction xs generalizing w with
  | nil => exact h.upd
  | cons x xs ih =>
    unfold Machine.serveWants
    repeat' split
    · exact ih (h.createTarget _ _)
    · exact h.upd
    · exact ih h

@[simp] theorem Within.serveMarkedWants (h : Within T v w) : Within T v w.serveMarkedWants := h.serveWants _

@[simp] theorem Within.dropEntryImage (e : Entry) (h : Within T v w) : Within T v (w.dropEntryImage e) := by
  unfold Work.dropEntryImage
  split <;> simp [h]

@[simp] theorem Within.lookAfter (m : LookMode) (e : Entry) (h : Within T v w) : Within T v (w.lookAfter m e) := by
  unfold Work.lookAfter
  repeat' split
  all_goals simp [h]

@[simp] theorem Within.freeEditionOf (e : Entry) (h : Within T v w) : Within T v (w.freeEditionOf e) := by
  unfold Work.freeEditionOf
  split <;> simp [h]

theorem dropEntryImage_entries (e : Entry) (w : Work) : (w.dropEntryImage e).entries = w.entries := by
  unfold Work.dropEntryImage Work.lowerImage Work.freeImage
  repeat' split
  all_goals rfl

@[simp] theorem Within.freeEntry (m : LookMode) (n : Nat) (h : Within T v w) : Within T v (w.freeEntry m n) := by
  unfold Work.freeEntry
  split
  · exact h
  · refine Within.freeEditionOf _ (Within.lookAfter _ _ (Within.setEntries (fun hw => ?_) (h.dropEntryImage _)))
    unfold PoolSound at hw
    rw [dropEntryImage_entries] at hw
    exact ⟨hw.1.sublist (List.filter_sublist.map _), fun e he => hw.2 e (List.mem_filter.mp he).1⟩

/-- An abort touches the transfer machine of the entry's site only. -/
theorem Within.abortEntry (c : ConfigWords) (m : LookMode) (cause : AbortCause) (e : Entry) (hs : T.engine e.site) (h : Within T v w) :
    Within T v (w.abortEntry c m cause e) := by
  have hm : Within T v (w.modEntry e.number (fun x => { x with state := .aborting, cause := some cause })) := h.modEntry _ fun _ => by rfl
  unfold Work.abortEntry
  dsimp only
  split
  · exact hm.modEngine hs _
  · exact (hm.modEngine hs _).lookWant _ _ _
  · exact hm

theorem Within.dealWith (c : ConfigWords) (m : LookMode) (cause : AbortCause) (e : Entry) (hs : T.engine e.site) (h : Within T v w) :
    Within T v (w.dealWith c m cause e) := by
  unfold Work.dealWith
  split <;> first
    | exact h
    | exact h.freeEntry _ _
    | exact h.abortEntry _ _ _ _ hs

theorem Within.dealWithAll (c : ConfigWords) (m : LookMode) (cause : AbortCause) (s : Site) (p : Entry → Bool) (ht : ∀ i, T.engine i)
    (h : Within T v w) : Within T v (w.dealWithAll c m cause s p) :=
  Within.each (fun e _ _ hw => hw.dealWith c m cause e (ht _)) h

theorem Within.killPlates (c : ConfigWords) (key : PageKey) (ht : ∀ i, T.engine i) (h : Within T v w) : Within T v (w.killPlates c key) :=
  Within.each (fun s _ _ hw => hw.dealWithAll c _ _ s _ ht) h

theorem Within.closeEntries (c : ConfigWords) (t : Title) (code : Nat) (sites : SiteSet) (ht : ∀ i, T.engine i) (h : Within T v w) :
    Within T v (w.closeEntries c t code sites) :=
  Within.each (fun s _ _ hw => hw.dealWithAll c _ _ s _ ht) h

@[simp] theorem Within.giveDeadline (t : Title) (code : Nat) (s : Site) (cutoff : Nat) (h : Within T v w) :
    Within T v (w.giveDeadline t code s cutoff) := h.modEntries _ fun _ => by rfl

@[simp] theorem Within.holdingRaised (s : Site) (k : SlotNo) (g : Nat) (h : Within T v w) : Within T v (w.holdingRaised s k g) :=
  Within.each (fun _ _ _ hw => hw.freeEntry _ _) (h.regate _ _)

@[simp] theorem Within.holdingCleared (s : Site) (k : SlotNo) (h : Within T v w) : Within T v (w.holdingCleared s k) :=
  (h.regate _ _).lookWant _ _ _

@[simp] theorem Within.holdChanged (t : Title) (code : Option Nat) (h : Within T v w) : Within T v (w.holdChanged t code) := h.regate _ _

@[simp] theorem Within.colourGate (s : Site) (k : SlotNo) (set : Bool) (h : Within T v w) : Within T v (w.colourGate s k set) :=
  h.regate _ _

/-! ### Release Table -/

/-- The record a sound page table holds for a key is the one it finds. -/
theorem PagesSound.find {p : PageRec} (h : PagesSound w) (hp : p ∈ w.pages) : w.findPage p.key = some p := by
  obtain ⟨hn, -⟩ := h
  unfold Work.findPage
  generalize w.pages = l at hn hp
  induction l with
  | nil => cases hp
  | cons x xs ih =>
    rw [List.map_cons, List.nodup_cons] at hn
    rcases List.mem_cons.mp hp with rfl | hx
    · simp
    · have : x.key ≠ p.key := fun e => hn.1 (e ▸ List.mem_map_of_mem hx)
      rw [List.find?_cons_of_neg (by simpa using this)]
      exact ih hn.2 hx

/-- A page's record changed: sound when, in a sound table, the record of the key that is found stays so. -/
theorem Within.modPageOf (key : PageKey) {f : PageRec → PageRec} (hk : ∀ p, (f p).key = p.key)
    (hf : PagesSound v → ∀ p, w.findPage key = some p → p.candidateAbove → (f p).candidateAbove) (h : Within T v w) :
    Within T v (w.modPage key f) := by
  refine { h with pages := fun hv => ?_ }
  have hw := h.pages hv
  have hm : (w.modPage key f).pages.map PageRec.key = w.pages.map PageRec.key := by
    show (w.pages.map _).map _ = _
    rw [List.map_map]
    refine List.map_congr_left fun p _ => ?_
    simp only [Function.comp]
    split
    · exact hk p
    · rfl
  refine ⟨hm ▸ hw.1, fun q hq => ?_⟩
  obtain ⟨p, hp, rfl⟩ := List.mem_map.mp (show q ∈ w.pages.map _ from hq)
  split
  · rename_i he
    have he : p.key = key := by simpa using he
    exact hf hv p (he ▸ hw.find hp) (hw.2 p hp)
  · exact hw.2 p hp

/-- A page's record changed: sound when the record of the key that is found stays so. -/
theorem Within.modPage (key : PageKey) {f : PageRec → PageRec} (hk : ∀ p, (f p).key = p.key)
    (hf : ∀ p, w.findPage key = some p → p.candidateAbove → (f p).candidateAbove) (h : Within T v w) : Within T v (w.modPage key f) :=
  h.modPageOf key hk fun _ => hf

/-- A change that leaves candidate and released version alone. -/
theorem Within.modPageSame (key : PageKey) {f : PageRec → PageRec} (hk : ∀ p, (f p).key = p.key) (hc : ∀ p, (f p).candidate = p.candidate)
    (hr : ∀ p, (f p).releasedVersion = p.releasedVersion) (h : Within T v w) : Within T v (w.modPage key f) :=
  h.modPage key hk fun p _ hp c hcc => by rw [hr]; exact hp c (hc p ▸ hcc)

/-- A change that leaves no candidate. -/
theorem Within.modPageNone (key : PageKey) {f : PageRec → PageRec} (hk : ∀ p, (f p).key = p.key) (hc : ∀ p, (f p).candidate = none)
    (h : Within T v w) : Within T v (w.modPage key f) :=
  h.modPage key hk fun p _ _ c hcc => by rw [hc] at hcc; cases hcc

theorem lowerImage_pages (id : Nat) (w : Work) : (w.lowerImage id).pages = w.pages := by
  unfold Work.lowerImage Work.freeImage
  repeat' split
  all_goals rfl

theorem lowerRefs_pages (refs : ImageRefs) (w : Work) : (w.lowerRefs refs).pages = w.pages :=
  Work.each_induct (P := fun u => u.pages = w.pages) _ _ _ rfl fun _ _ u hu => (lowerImage_pages _ u).trans hu

/-- What is found of a page depends on the page table alone. -/
theorem findPage_congr {u : Work} (h : u.pages = w.pages) (key : PageKey) : u.findPage key = w.findPage key := by
  unfold Work.findPage
  rw [h]

@[simp] theorem Within.dropItem (key : PageKey) (h : Within T v w) : Within T v (w.dropItem key) := h.upd

@[simp] theorem Within.putItem (i : BacklogItem) (h : Within T v w) : Within T v (w.putItem i) := by
  unfold Work.putItem
  split
  · exact h.dropItem _
  · exact h.upd

@[simp] theorem Within.addItem (i : BacklogItem) (h : Within T v w) : Within T v (w.addItem i) := by
  unfold Work.addItem
  split
  · exact h
  · exact h.upd

@[simp] theorem Within.putWithdraw (key : PageKey) (sites : SiteSet) (h : Within T v w) : Within T v (w.putWithdraw key sites) := by
  unfold Work.putWithdraw
  dsimp only
  split
  · exact h.dropItem _
  · exact (h.dropItem key).upd

@[simp] theorem Within.joinRelease (key : PageKey) (h : Within T v w) : Within T v (w.joinRelease key) := by
  unfold Work.joinRelease
  repeat' split
  all_goals simp [h]

@[simp] theorem Within.withdrawRelease (key : PageKey) (h : Within T v w) : Within T v (w.withdrawRelease key) := by
  unfold Work.withdrawRelease
  repeat' split
  all_goals simp [h]

@[simp] theorem Within.joinReseed (key : PageKey) (sites : SiteSet) (h : Within T v w) : Within T v (w.joinReseed key sites) := by
  unfold Work.joinReseed
  repeat' split
  all_goals simp [h]

@[simp] theorem Within.dropItemSites (sites : SiteSet) (i : BacklogItem) (h : Within T v w) : Within T v (w.dropItemSites sites i) :=
  h.putItem _

@[simp] theorem Within.closeBacklog (t : Title) (code : Nat) (sites : SiteSet) (h : Within T v w) : Within T v (w.closeBacklog t code sites) :=
  Within.each (fun _ _ _ hw => hw.dropItemSites _ _) h

@[simp] theorem Within.discardCandidate (key : PageKey) (h : Within T v w) : Within T v (w.discardCandidate key) := by
  unfold Work.discardCandidate
  split
  · exact h
  · split
    · exact h
    · exact ((h.lowerRefs _).modPageNone key (fun _ => by rfl) (fun _ => by rfl)).withdrawRelease key

theorem putItem_pages (i : BacklogItem) (w : Work) : (w.putItem i).pages = w.pages := by
  unfold Work.putItem
  split <;> rfl

theorem withdrawRelease_pages (key : PageKey) (w : Work) : (w.withdrawRelease key).pages = w.pages := by
  unfold Work.withdrawRelease
  repeat' split
  · rfl
  · exact putItem_pages _ _
  · rfl

/-- Discarding a candidate leaves the key's record with its released version. -/
theorem discardCandidate_find {key : PageKey} {p : PageRec} (hp : (w.discardCandidate key).findPage key = some p) :
    ∃ q, w.findPage key = some q ∧ q.releasedVersion = p.releasedVersion := by
  unfold Work.discardCandidate at hp
  split at hp
  · exact ⟨p, hp, rfl⟩
  · split at hp
    · exact ⟨p, hp, rfl⟩
    · rw [findPage_congr (withdrawRelease_pages key _)] at hp
      unfold Work.findPage Work.modPage at hp
      simp only [lowerRefs_pages] at hp
      rw [List.find?_map] at hp
      obtain ⟨q, hq, rfl⟩ := Option.map_eq_some_iff.mp hp
      refine ⟨q, ?_, ?_⟩
      · unfold Work.findPage
        rw [← hq]
        congr 1
        funext x
        simp only [Function.comp]
        split <;> rfl
      · split <;> rfl

/-- A new candidate of a version above the released one. -/
theorem Within.newCandidate (key : PageKey) (version : Nat)
    (hv : PagesSound v → ∀ p, w.findPage key = some p → p.releasedVersion < version)
    (h : Within T v w) : Within T v (w.newCandidate key version) := by
  unfold Work.newCandidate
  dsimp only
  split
  · exact h.modPageOf key (fun _ => by rfl) fun hs p hp _ c hc => by cases hc; exact hv hs p hp
  · refine Within.modPageOf key (fun _ => by rfl) (fun hs p hp _ c hc => ?_) ((h.discardCandidate key).toTitle _ _)
    cases hc
    rw [findPage_congr (Work.toTitle_pages _ _ _)] at hp
    obtain ⟨q, hq, hr⟩ := discardCandidate_find hp
    exact hr ▸ hv hs q hq

theorem Within.attachFill {id : Nat} {key : PageKey} {sep : Sep} {version : Nat} {u : Work} (hu : w.attachFill id key sep version = some u)
    (h : Within T v w) : Within T v u := by
  unfold Work.attachFill at hu
  dsimp only at hu
  split at hu
  · cases hu
  · rename_i p hp
    split at hu
    · cases hu
    · rename_i c hc
      split at hu
      · have hm' : Within T v ((w.sealImage id).modPage key (fun q => { q with candidate := some (c.filled p.colour sep id) })) :=
          (h.sealImage id).modPage key (fun _ => by rfl) fun q hq hqa d hd => by
            have hqp : some q = some p := by rw [← hq, ← hp]; rfl
            cases hqp
            cases hd
            exact hqa c hc
        cases hu
        split
        · exact hm'.joinRelease key
        · exact hm'
      · cases hu

@[simp] theorem Within.leaveCount (key : PageKey) (sites : List Site) (h : Within T v w) : Within T v (w.leaveCount key sites) :=
  Within.each (fun _ _ _ hw => hw.pageLeaves _ _ _) h

@[simp] theorem Within.releasePage (key : PageKey) (h : Within T v w) : Within T v (w.releasePage key) := by
  have hm (u : Work) (f : PageRec → PageRec) (hk : ∀ p, (f p).key = p.key) (hc : ∀ p, (f p).candidate = none) (sites : List Site)
      (n : Notice) (hu : Within T v u) : Within T v (((u.modPage key f).leaveCount key sites).toTitle key.title n) :=
    ((hu.modPageNone key hk hc).leaveCount _ _).toTitle _ _
  unfold Work.releasePage
  dsimp only
  split
  · exact h
  · split
    · exact h
    · split
      · exact hm _ _ (fun _ => by rfl) (fun _ => by rfl) _ _ (h.lowerRefs _)
      · exact hm _ _ (fun _ => by rfl) (fun _ => by rfl) _ _ h

@[simp] theorem Within.killPage (p : PageRec) (h : Within T v w) : Within T v (w.killPage p) := by
  have hm (u : Work) (f : PageRec → PageRec) (hk : ∀ p, (f p).key = p.key) (hc : ∀ p, (f p).candidate = none) (hu : Within T v u) :
      Within T v ((u.modPage p.key f).putWithdraw p.key ((u.modPage p.key f).holdingSites p)) :=
    (hu.modPageNone p.key hk hc).putWithdraw _ _
  unfold Work.killPage
  dsimp only
  split <;> split
  · exact hm _ _ (fun _ => by rfl) (fun _ => by rfl) ((h.lowerRefs _).lowerRefs _)
  · exact hm _ _ (fun _ => by rfl) (fun _ => by rfl) (h.lowerRefs _)
  · exact hm _ _ (fun _ => by rfl) (fun _ => by rfl) (h.lowerRefs _)
  · exact hm _ _ (fun _ => by rfl) (fun _ => by rfl) h

@[simp] theorem Within.strayPlate (s : Site) (key : PageKey) (sep : Sep) (version : Nat) (h : Within T v w) :
    Within T v (w.strayPlate s key sep version) := (h.toTitle _ _).toDesk _

@[simp] theorem Within.pageJoinsIf (key : PageKey) (mask : SiteSet) (s : Site) (h : Within T v w) :
    Within T v (w.pageJoinsIf key mask s) := by
  unfold Work.pageJoinsIf
  split <;> simp [h]

theorem Within.modSite (key : PageKey) (s : Site) (f : PageSite → PageSite) (h : Within T v w) :
    Within T v (w.modPage key (PageRec.modSite s f)) :=
  h.modPageSame key (fun _ => by rfl) (fun _ => by rfl) (fun _ => by rfl)

@[simp] theorem Within.plateDelivered (s : Site) (key : PageKey) (sep : Sep) (version : Nat) (h : Within T v w) :
    Within T v (w.plateDelivered s key sep version) := by
  unfold Work.plateDelivered
  dsimp only
  split
  · exact h
  · split
    · exact h
    · split
      · split
        · exact ((h.modSite _ _ _).toTitle _ _).pageJoinsIf _ _ _
        · exact h.modSite _ _ _
      · exact h.strayPlate _ _ _ _
    · exact h.strayPlate _ _ _ _
    · exact h.strayPlate _ _ _ _

@[simp] theorem Within.forgetHeld (s : Site) (p : PageRec) (h : Within T v w) : Within T v (w.forgetHeld s p) := by
  unfold Work.forgetHeld
  dsimp only
  split
  · exact (h.modSite _ _ _).pageLeaves _ _ _
  · exact h.modSite _ _ _

@[simp] theorem Within.pageWithdrawn (s : Site) (key : PageKey) (h : Within T v w) : Within T v (w.pageWithdrawn s key) := by
  unfold Work.pageWithdrawn
  split <;> simp [h]

@[simp] theorem Within.restartPage (s : Site) (p : PageRec) (h : Within T v w) : Within T v (w.restartPage s p) := by
  unfold Work.restartPage
  dsimp only
  repeat' split
  all_goals simp (maxDischargeDepth := 20) [h]

@[simp] theorem Within.restartPages (s : Site) (h : Within T v w) : Within T v (w.restartPages s) :=
  Within.each (fun _ _ _ hw => hw.restartPage _ _) h

@[simp] theorem Within.freePage (p : PageRec) (h : Within T v w) : Within T v (w.freePage p) := by
  have hc : Within T v (match p.candidate with
      | some c => w.lowerRefs c.images
      | none => w) := by split <;> simp [h]
  have hr : ∀ u : Work, Within T v u → Within T v (match p.released with
      | some r => u.lowerRefs r.images
      | none => u) := fun u hu => by split <;> simp [hu]
  refine ((hr _ hc).dropItem p.key).upd (pages := fun hw => ?_)
  have hp : (match p.candidate with
      | some c => w.lowerRefs c.images
      | none => w).pages = w.pages := by split <;> simp [lowerRefs_pages]
  have hq : ∀ u : Work, (match p.released with
      | some r => u.lowerRefs r.images
      | none => u).pages = u.pages := fun u => by split <;> simp [lowerRefs_pages]
  exact ⟨hw.1.sublist (List.filter_sublist.map _), fun q hm => hw.2 q (List.mem_filter.mp hm).1⟩

@[simp] theorem Within.retirePages (t : Title) (code : Nat) (h : Within T v w) : Within T v (w.retirePages t code) :=
  Within.each (fun _ _ _ hw => hw.freePage _) h

/-! ### Damage and resupply -/

theorem Entry.withGates_number (e : Entry) (g : Gates) : (e.withGates g).number = e.number := rfl

@[simp] theorem Within.swapEntry (new : Nat) (e : Entry) (h : Within T v w) : Within T v (w.swapEntry new e) := by
  unfold Work.swapEntry
  dsimp only
  have hm : Within T v (w.modEntry e.number (fun x =>
      if x.waiting then Entry.withGates { x with image := some new, acked := 0 } { x.gates with resupply := false }
      else { x with image := some new, acked := 0 })) :=
    h.modEntry _ fun x => by split <;> rfl
  split
  · exact (hm.raiseImage _).lowerImage _
  · exact hm.raiseImage _

@[simp] theorem Within.swapImage (old new : Nat) (h : Within T v w) : Within T v (w.swapImage old new) :=
  Within.each (fun _ _ _ hw => hw.swapEntry _ _) h

theorem Within.attachResupply {id : Nat} {key : PageKey} {sep : Sep} {version : Nat} {u : Work}
    (hu : w.attachResupply id key sep version = some u) (h : Within T v w) : Within T v u := by
  unfold Work.attachResupply at hu
  dsimp only at hu
  split at hu
  · cases hu
  · rename_i p hp
    split at hu
    · rename_i r _ hr
      split at hu
      · have hm (images : ImageRefs) (resupply : SepSet) : Within T v ((w.sealImage id).modPage key
            (fun q => { q with released := some { r with images := images, resupply := resupply } })) :=
          (h.sealImage id).modPage key (fun _ => by rfl) fun q hq hqa d hd => by
            have hqp : some q = some p := by rw [← hq, ← hp]; rfl
            cases hqp
            have := hqa d hd
            unfold PageRec.releasedVersion at this
            rw [hr] at this
            exact this
        split at hu <;> cases hu
        · exact ((hm _ _).lowerImage _).swapImage _ _
        · exact hm _ _
      · cases hu
    · cases hu

@[simp] theorem Within.damageEntry (id : Nat) (e : Entry) (h : Within T v w) : Within T v (w.damageEntry id e) := by
  unfold Work.damageEntry
  split
  · exact h.modEntry _ fun _ => by rfl
  · exact h.freeEntry _ _

@[simp] theorem Within.damageEntries (id : Nat) (h : Within T v w) : Within T v (w.damageEntries id) :=
  Within.each (fun _ _ _ hw => hw.damageEntry _ _) h

@[simp] theorem Within.damagePage (r : ImageRec) (h : Within T v w) : Within T v (w.damagePage r) := by
  unfold Work.damagePage
  dsimp only
  split
  · exact h
  · rename_i p hp
    split
    · exact Within.toTitle _ _ (h.modPageSame _ (fun _ => by rfl) (fun _ => by rfl) fun q => by
        unfold PageRec.releasedVersion
        cases q.released <;> rfl)
    · split
      · rename_i c hc
        split
        · have hm (x : Option Nat) : Within T v ((w.lowerImage r.id).modPage r.key
              (fun q => { q with candidate := some { c with images := c.images.put r.sep x, state := .collecting } })) :=
            (h.lowerImage r.id).modPage _ (fun _ => by rfl) fun q hq hqa d hd => by
              rw [findPage_congr (lowerImage_pages r.id w)] at hq
              have hqp : some q = some p := by rw [← hq, ← hp]
              cases hqp
              cases hd
              exact hqa c hc
          split
          · exact ((hm _).withdrawRelease _).toTitle _ _
          · exact (hm _).toTitle _ _
        · exact h
      · exact h

@[simp] theorem Within.damageImage (r : ImageRec) (h : Within T v w) : Within T v (w.damageImage r) := by
  let x := (w.modImage r.id (fun x => { x with state := .damaged })).raiseError (fun e => { e with dramUncorrectable := true })
  have hx : Within T v x := (h.modImage _ _).raiseError _
  have hu : Within T v { x with uncorrectable := bump x.uncorrectable } := hx.upd
  exact (hu.damageEntries r.id).damagePage r

@[simp] theorem Within.countCorrected (n : Nat) (h : Within T v w) : Within T v (w.countCorrected n) := h.upd

@[simp] theorem Within.requeue (n : Nat) (h : Within T v w) : Within T v (w.requeue n) := by
  unfold Work.requeue
  dsimp only
  repeat' split
  · exact h
  · exact Within.lookWant _ _ _ (h.modEntry _ fun _ => by rfl)
  · exact h.modEntry _ fun _ => by rfl

@[simp] theorem Within.returnEntry (n : Nat) (h : Within T v w) : Within T v (w.returnEntry n) := by
  unfold Work.returnEntry
  repeat' split
  all_goals first
    | exact h
    | exact h.freeEntry _ _
    | exact h.requeue _
    | exact (h.swapEntry _ _).requeue _
    | exact Within.requeue _ (h.modEntry _ fun _ => by rfl)

/-! ### Admission -/

theorem Within.supersede (c : ConfigWords) (key : PageKey) (s : Site) (ht : ∀ i, T.engine i) (h : Within T v w) :
    Within T v (w.supersede c key s) := h.dealWithAll _ _ _ _ _ ht

@[simp] theorem Within.dropWithdraw (key : PageKey) (s : Site) (h : Within T v w) : Within T v (w.dropWithdraw key s) :=
  Within.each (fun _ _ _ hw => hw.freeEntry _ _) h

@[simp] theorem Within.supply (p : PageRec) (r : Released) (s : Site) (h : Within T v w) : Within T v (w.supply p r s) :=
  Within.lookWant _ _ _ (Within.each (fun sep _ w hw => by split <;> simp [hw]) h)

@[simp] theorem Within.withdrawAt (p : PageRec) (s : Site) (h : Within T v w) : Within T v (w.withdrawAt p s) := by
  unfold Work.withdrawAt
  split <;> simp [h]

theorem Within.admitRelease (c : ConfigWords) (p : PageRec) (ht : ∀ i, T.engine i) (h : Within T v w) : Within T v (w.admitRelease c p) := by
  unfold Work.admitRelease
  dsimp only
  repeat' split
  · exact h.releasePage _
  · exact h.releasePage _
  · refine Within.each (fun s _ w hw => ?_) (Within.each (fun s _ w hw => ?_) (h.releasePage _))
    · exact (hw.supersede c _ s ht).withdrawAt _ _
    · exact ((hw.supersede c _ s ht).dropWithdraw _ _).supply _ _ _

theorem Within.admitReseed (c : ConfigWords) (p : PageRec) (sites : SiteSet) (ht : ∀ i, T.engine i) (h : Within T v w) :
    Within T v (w.admitReseed c p sites) := by
  unfold Work.admitReseed
  split
  · exact h
  · exact Within.each (fun s _ w hw => (hw.supersede c _ s ht).supply _ _ _) h

theorem Within.admitItem (c : ConfigWords) (i : BacklogItem) (ht : ∀ i, T.engine i) (h : Within T v w) : Within T v (w.admitItem c i) := by
  unfold Work.admitItem
  dsimp only
  repeat' split
  · exact h.dropItem _
  · exact (h.dropItem _).admitRelease c _ ht
  · exact (h.dropItem _).admitReseed c _ _ ht
  · exact Within.each (fun s _ w hw => hw.withdrawAt _ _) (h.dropItem _)

theorem Within.admitWhile (c : ConfigWords) (fuel : Nat) (ht : ∀ i, T.engine i) (h : Within T v w) : Within T v (w.admitWhile c fuel) := by
  induction fuel generalizing w with
  | zero => exact h
  | succ fuel ih =>
    unfold Work.admitWhile
    repeat' split
    · exact h
    · exact ih (h.admitItem c _ ht).serveMarkedWants
    · exact h

/-- Admission touches the transfer machines by its aborts, and no other record of a line. -/
theorem Within.admission (c : ConfigWords) (ht : ∀ i, T.engine i) (h : Within T v w) : Within T v (w.admission c) :=
  h.serveMarkedWants.admitWhile c _ ht

end Sys2Proof.Machine
end

