-- ==== Sys2Proof/Laws/WithinLines.lean ====
section
/-! SUPPORT. What the operations of the Colour Target Store, the Line Qualifiers and the Line Engines touch (Laws/Within.lean): an operation
of one line touches the records of that line alone. -/

namespace Sys2Proof.Machine

set_option Elab.async false

variable {T : Touch} {v w : Work}

/-! ### Colour Target Store -/

theorem Within.distributeAt (c : ConfigWords) (k : SlotNo) (s : Site) (ht : ∀ i, T.engine i) (h : Within T v w) :
    Within T v (w.distributeAt c k s) := (h.dealWithAll c _ _ s _ ht).createTarget _ _

theorem Within.takeLoad (c : ConfigWords) (t : Title) (k : SlotNo) (mask : SiteSet) (name : List Byte) (patches : List Patch)
    (ht : ∀ i, T.engine i) (hs : T.slots) (h : Within T v w) : Within T v (w.takeLoad c t k mask name patches) := by
  have hslot (x : TargetSlot) : Within T v { w with slots := tput w.slots k x } := h.upd (slots := fun hn => absurd hs hn)
  exact ((Within.each (fun s _ u hu => hu.distributeAt c k s ht) (hslot _)).toTitle _ _).toDesk _

theorem Within.targetLoad (c : ConfigWords) (t : Title) (m : LoadMsg) (ht : ∀ i, T.engine i) (hs : T.slots) (h : Within T v w) :
    Within T v (w.targetLoad c t m) := by
  unfold Work.targetLoad
  repeat' split
  · exact h.toTitle _ _
  · exact h.toTitle _ _
  · exact h.takeLoad c t _ _ _ _ ht hs

theorem Within.clearHold (s : Site) (k : SlotNo) (cause : ClearCause) (hs : T.line s) (h : Within T v w) :
    Within T v (w.clearHold s k cause) := ((h.setCheck hs _ _).colourGate _ _ _).toDesk _

theorem Within.setHold (s : Site) (k : SlotNo) (hs : T.line s) (h : Within T v w) : Within T v (w.setHold s k) := by
  have hx (r : CheckRec) (n : Notice) : Within T v (((w.setCheck s k r).colourGate s k true).toDesk n) :=
    ((h.setCheck hs _ _).colourGate _ _ _).toDesk _
  exact (hx _ _).upd

theorem Within.raiseHolding (s : Site) (k : SlotNo) (g : Nat) (hs : T.line s) (h : Within T v w) : Within T v (w.raiseHolding s k g) := by
  unfold Work.raiseHolding
  dsimp only
  repeat' split
  · exact ((h.setHolding hs _ _).clearHold _ _ _ hs).holdingRaised _ _ _
  · exact (h.setHolding hs _ _).holdingRaised _ _ _
  · exact ((h.setHolding hs _ _).setCheck hs _ _).holdingRaised _ _ _

theorem Within.storeHeld (s : Site) (k : SlotNo) (g : Nat) (hs : T.line s) (h : Within T v w) : Within T v (w.storeHeld s k g) := by
  unfold Work.storeHeld
  repeat' split
  · exact h.modSiteCounters hs _
  · exact h.raiseHolding _ _ _ hs
  · exact h

theorem Within.clearHolding (s : Site) (k : SlotNo) (hs : T.line s) (h : Within T v w) : Within T v (w.clearHolding s k) :=
  (h.setHolding hs _ _).holdingCleared _ _

theorem Within.evaluate (c : ConfigWords) (s : Site) (k : SlotNo) (rs : List (Option Nat)) (hs : T.line s) (h : Within T v w) :
    Within T v (w.evaluate c s k rs) := by
  unfold Work.evaluate
  dsimp only
  split
  · exact (h.setCheck hs _ _).setHold _ _ hs
  · exact h.setCheck hs _ _

theorem Within.countStale (s : Site) (hs : T.line s) (h : Within T v w) : Within T v (w.countStale s) := h.modSiteCounters hs _

theorem Within.setHoldings {s : Site} (hs : T.line s) (x : Vector Nat 32) (h : Within T v w) :
    Within T v { w with holdings := tput w.holdings s x } :=
  h.upd (holding := fun _ hj => tget_tput_ne _ _ fun hij => hj (hij ▸ hs))

theorem Within.restartColour (s : Site) (hs : T.line s) (h : Within T v w) : Within T v (w.restartColour s) := by
  have he : Within T v (w.each (Work.restartCheck s) allSlots) :=
    Within.each (fun k _ u hu => by
      unfold Work.restartCheck
      split
      · exact hu.clearHold _ _ _ hs
      · exact hu.setCheck hs _ _) h
  exact he.setHoldings hs _

/-! ### Line Qualifiers -/

theorem Within.beginTraining (cause : TrainingCause) (s : Site) (hs : T.line s) (h : Within T v w) : Within T v (w.beginTraining cause s) :=
  (h.modQual hs _).toDesk _

theorem Within.trainingPassed (degraded : Bool) (s : Site) (hs : T.line s) (h : Within T v w) :
    Within T v (w.trainingPassed degraded s) := (h.setQual hs _).toDesk _

theorem Within.trainingDown (c : ConfigWords) (s : Site) (hs : T.line s) (h : Within T v w) : Within T v (w.trainingDown c s) := by
  have hx (q : Qualifier) (n : Notice) : Within T v ((w.setQual s q).toDesk n) := (h.setQual hs _).toDesk _
  exact (hx _ _).upd

theorem Within.attemptFailed (c : ConfigWords) (r : Verdict) (errors : Nat) (s : Site) (hs : T.line s) (h : Within T v w) :
    Within T v (w.attemptFailed c r errors s) := by
  unfold Work.attemptFailed
  dsimp only
  split
  · exact h.setQual hs _
  · exact (h.setQual hs _).trainingDown c s hs

/-! ### Line Engines: the current entry -/

/-- The entry an engine carries stands in its site's queue. -/
theorem current_site {s : Site} {e : Entry} (h : w.current s = some e) : e.site = s := by
  unfold Work.current at h
  split at h
  · have := List.find?_some h
    simp only [Bool.and_eq_true, beq_iff_eq] at this
    exact this.2
  · cases h

@[simp] theorem Within.setEntryState (n : Nat) (st : EntryState) (h : Within T v w) : Within T v (w.setEntryState n st) :=
  h.modEntry _ fun _ => by rfl

@[simp] theorem Within.setAcked (n k : Nat) (h : Within T v w) : Within T v (w.setAcked n k) := h.modEntry _ fun _ => by rfl

theorem Within.sendFirst (s : Site) (e : Entry) (hs : T.engine s) (h : Within T v w) : Within T v (w.sendFirst s e) := h.modEngine hs _

theorem Within.pump (c : ConfigWords) (s : Site) (hs : T.engine s) (h : Within T v w) : Within T v (w.pump c s) := by
  unfold Work.pump
  dsimp only
  repeat' split
  all_goals first
    | exact h
    | exact h.setEngine hs _

theorem Within.pumpAll (c : ConfigWords) (ht : ∀ i, T.engine i) (h : Within T v w) : Within T v (w.pumpAll c) :=
  Within.each (fun s _ _ hw => hw.pump c s (ht s)) h

theorem Within.enterIdle (s : Site) (hs : T.engine s) (h : Within T v w) : Within T v (w.enterIdle s) := h.modEngine hs _

theorem Within.enterConfirming (c : ConfigWords) (s : Site) (n : Nat) (hs : T.engine s) (h : Within T v w) :
    Within T v (w.enterConfirming c s n) := (h.modEngine hs _).setEntryState _ _

/-! ### Line failure and aborts -/

@[simp] theorem Within.failEntry (e : Entry) (h : Within T v w) : Within T v (w.failEntry e) := by
  unfold Work.failEntry
  repeat' split
  all_goals simp [h]

theorem Within.qualifierFailed (cause : TrainingCause) (s : Site) (hs : T.line s) (h : Within T v w) :
    Within T v (w.qualifierFailed cause s) := by
  unfold Work.qualifierFailed
  split
  · exact h.beginTraining _ _ hs
  · exact h

theorem Within.lineFailure (cause : TrainingCause) (s : Site) (he : T.engine s) (hs : T.line s) (h : Within T v w) :
    Within T v (w.lineFailure cause s) := by
  unfold Work.lineFailure
  dsimp only
  split
  · exact ((h.failEntry _).modEngine he _).qualifierFailed _ _ hs
  · exact (h.modEngine he _).qualifierFailed _ _ hs

theorem Within.protocolError (s : Site) (he : T.engine s) (hs : T.line s) (h : Within T v w) : Within T v (w.protocolError s) :=
  h.lineFailure _ _ he hs

theorem Within.abortEnds (s : Site) (e : Entry) (he : T.engine s) (h : Within T v w) : Within T v (w.abortEnds s e) :=
  (h.failEntry _).enterIdle _ he

/-! ### Hand-over and frames leaving the line -/

theorem Within.recordTitle (s : Site) (e : Entry) (hs : T.line s) (h : Within T v w) : Within T v (w.recordTitle s e) := by
  unfold Work.recordTitle
  split
  · exact h.setArbiter hs _
  · exact h

theorem Within.handOver (c : ConfigWords) (s : Site) (he : T.engine s) (hs : T.line s) (h : Within T v w) : Within T v (w.handOver c s) := by
  unfold Work.handOver
  repeat' split
  · exact (((h.setEntryState _ _).modEngine he _).recordTitle _ _ hs).sendFirst _ _ he
  · exact h
  · exact h

theorem Within.shortFrameLeft (c : ConfigWords) (s : Site) (he : T.engine s) (h : Within T v w) : Within T v (w.shortFrameLeft c s) := by
  unfold Work.shortFrameLeft
  repeat' split
  · exact h.modEngine he _
  · exact h.enterConfirming c s _ he
  · exact h.modEngine he _
  · exact h

theorem Within.frameLeft (c : ConfigWords) (s : Site) (f : OutFrame) (he : T.engine s) (h : Within T v w) :
    Within T v (w.frameLeft c s f) := by
  unfold Work.frameLeft
  dsimp only
  repeat' split
  all_goals first
    | exact h
    | exact h.setEngine he _
    | exact h.shortFrameLeft c s he
    | exact h.pump c s he

theorem Within.frameLeftLine (c : ConfigWords) (s : Site) (he : T.engine s) (h : Within T v w) : Within T v (w.frameLeftLine c s) := by
  unfold Work.frameLeftLine
  split
  · exact h
  · exact (h.modEngine he _).frameLeft c s _ he

/-! ### Band reads and the scrub -/

theorem Within.payloadRead (s : Site) (r : BandRead) (payload : List Byte) (he : T.engine s) (h : Within T v w) :
    Within T v (w.payloadRead s r payload) := by
  unfold Work.payloadRead
  split
  · exact h.modEngine he _
  · exact h

theorem Within.damagedRead (c : ConfigWords) (s : Site) (r : BandRead) (he : T.engine s) (h : Within T v w) :
    Within T v (w.damagedRead c s r) := by
  unfold Work.damagedRead
  repeat' split
  · rename_i e hc _
    exact h.abortEntry c _ _ e (current_site hc ▸ he)
  · exact h
  · exact h

theorem Within.answerRead (c : ConfigWords) (m : List Host.Cell) (s : Site) (ecc : EccOutcome) (r : BandRead) (he : T.engine s)
    (h : Within T v w) : Within T v (w.answerRead c m s ecc r) := by
  unfold Work.answerRead
  dsimp only
  repeat' split
  · exact h
  · exact ((h.countCorrected _).damageImage _).damagedRead c s r he
  · exact (h.countCorrected _).payloadRead s r _ he
  · exact h.damagedRead c s r he
  all_goals exact h

theorem Within.bandReadDone (c : ConfigWords) (m : List Host.Cell) (s : Site) (ecc : EccOutcome) (he : T.engine s) (h : Within T v w) :
    Within T v (w.bandReadDone c m s ecc) := by
  unfold Work.bandReadDone
  split
  · exact h
  · exact ((h.modEngine he _).answerRead c m s ecc _ he).pump c s he

theorem Within.scrubStep (ecc : EccOutcome) (hs : T.scrub) (h : Within T v w) : Within T v (w.scrub ecc) := by
  have adv {u : Work} (hu : Within T v u) : Within T v u.advanceScrub := hu.upd (scrub := fun hn => absurd hs hn)
  unfold Work.scrub
  split
  · exact adv h
  · refine adv ?_
    unfold Work.scrubImage
    repeat' split
    all_goals first
      | exact h
      | exact h.countCorrected _
      | exact (h.countCorrected _).damageImage _

/-! ### Inbound frames -/

/-- An inbound frame stays within `T` when what it does does. -/
theorem Within.inbound (s : Site) {f : Work → Work} (hs : T.line s) (hf : ∀ u, Within T v u → Within T v (f u)) (h : Within T v w) :
    Within T v (w.inbound s f) := by
  unfold Work.inbound
  split
  · exact hf _ (h.modQual hs _)
  · exact h

theorem Within.countStray (s : Site) (he : T.engine s) (h : Within T v w) : Within T v (w.countStray s) := h.modEngine he _

theorem Within.answer (s : Site) (tag : Byte) {f : Entry → Work → Work} (he : T.engine s)
    (hf : ∀ e u, Within T v u → Within T v (f e u)) (h : Within T v w) : Within T v (w.answer s tag f) := by
  unfold Work.answer
  repeat' split
  · exact h.countStray s he
  · exact hf _ _ h
  · exact h

theorem Within.plateAnswer (s : Site) (tag : Byte) {f : Entry → Work → Work} (he : T.engine s) (hs : T.line s)
    (hf : ∀ e u, Within T v u → Within T v (f e u)) (h : Within T v w) : Within T v (w.plateAnswer s tag f) :=
  Within.answer s tag he (fun e u hu => by
    show Within T v (if e.kind == .plate then f e u else u.protocolError s)
    split
    · exact hf e u hu
    · exact hu.protocolError s he hs) h

theorem Within.resumeAt (c : ConfigWords) (s : Site) (r : Nat) (e : Entry) (he : T.engine s) (hs : T.line s) (h : Within T v w) :
    Within T v (w.resumeAt c s r e) := by
  unfold Work.resumeAt
  dsimp only
  split
  · exact h.protocolError s he hs
  · split
    · exact Within.enterConfirming c s _ he (Within.modEngine he _ (h.setAcked _ _))
    · exact Within.pump c s he (Within.modEngine he _ (Within.modEngine he _ (h.setAcked _ _)))

theorem Within.openAck (c : ConfigWords) (s : Site) (tag : Byte) (r : Nat) (he : T.engine s) (hs : T.line s) (h : Within T v w) :
    Within T v (w.openAck c s tag r) :=
  Within.plateAnswer s tag he hs (fun e u hu => by
    split
    · exact hu.resumeAt c s r e he hs
    all_goals exact hu) h

theorem Within.ackBands (c : ConfigWords) (s : Site) (n : Nat) (e : Entry) (he : T.engine s) (h : Within T v w) :
    Within T v (w.ackBands c s n e) := by
  unfold Work.ackBands
  dsimp only
  split
  · exact Within.enterConfirming c s _ he (Within.modEngine he _ (h.setAcked _ _))
  · exact Within.pump c s he (Within.modEngine he _ (Within.modEngine he _ (h.setAcked _ _)))

theorem Within.bandAck (c : ConfigWords) (s : Site) (tag : Byte) (n : Nat) (he : T.engine s) (hs : T.line s) (h : Within T v w) :
    Within T v (w.bandAck c s tag n) :=
  have hm : ∀ e u, Within T v u → Within T v (if Nat.blt (u.engine s).sentMark n then u.protocolError s
      else if Nat.ble n e.acked then u else u.ackBands c s n e) := fun e u hu => by
    split
    · exact hu.protocolError s he hs
    · split
      · exact hu
      · exact hu.ackBands c s n e he
  Within.plateAnswer s tag he hs (fun e u hu => by
    split
    · exact hu
    · exact hu
    all_goals exact hm e u hu) h

theorem Within.completePlate (s : Site) (e : Entry) (he : T.engine s) (hs : T.line s) (h : Within T v w) :
    Within T v (w.completePlate s e) := by
  have h1 : Within T v (w.modEngine s Engine.stopped) := h.modEngine he _
  unfold Work.completePlate
  dsimp only
  repeat' split
  all_goals first
    | exact (((h1.plateDelivered _ _ _ _).modSiteCounters hs _).freeEntry _ _).enterIdle s he
    | exact ((h1.modSiteCounters hs _).freeEntry _ _).enterIdle s he
    | exact ((h1.plateDelivered _ _ _ _).freeEntry _ _).enterIdle s he
    | exact (h1.freeEntry _ _).enterIdle s he

theorem Within.plateDone (s : Site) (tag : Byte) (he : T.engine s) (hs : T.line s) (h : Within T v w) : Within T v (w.plateDone s tag) :=
  Within.plateAnswer s tag he hs (fun e u hu => by
    repeat' split
    all_goals first
      | exact hu
      | exact hu.completePlate s e he hs
      | exact hu.protocolError s he hs
      | exact hu.countStray s he) h

@[simp] theorem Within.reportRefusal (s : Site) (e : Entry) (r : RefuseReason) (h : Within T v w) : Within T v (w.reportRefusal s e r) := by
  unfold Work.reportRefusal
  split
  · exact (h.toTitle _ _).toDesk _
  · exact h

@[simp] theorem Within.removeRefused (s : Site) (e : Entry) (r : RefuseReason) (h : Within T v w) : Within T v (w.removeRefused s e r) :=
  (h.freeEntry _ _).reportRefusal _ _ _

@[simp] theorem Within.countRefusal (s : Site) (e : Entry) (r : RefuseReason) (h : Within T v w) : Within T v (w.countRefusal s e r) := by
  unfold Work.countRefusal
  split
  · exact Within.returnEntry _ (h.modEntry _ fun _ => by rfl)
  · exact h.removeRefused _ _ _

theorem Within.targetMissing (s : Site) (e : Entry) (hs : T.line s) (h : Within T v w) : Within T v (w.targetMissing s e) := by
  unfold Work.targetMissing
  dsimp only
  repeat' split
  · exact ((h.clearHolding _ _ hs).setAcked _ _).returnEntry _
  · exact (h.setAcked _ _).returnEntry _
  · exact (h.clearHolding _ _ hs).countRefusal _ _ _
  · exact h.countRefusal _ _ _

theorem Within.refusal (s : Site) (e : Entry) (r : RefuseReason) (he : T.engine s) (hs : T.line s) (h : Within T v w) :
    Within T v (w.refusal s e r) := by
  have h1 : Within T v (w.modEngine s Engine.stopped) := h.modEngine he _
  cases r
  · exact (h1.targetMissing s e hs).enterIdle s he
  · exact (h1.countRefusal s e _).enterIdle s he
  · exact (h1.removeRefused s e _).enterIdle s he

theorem Within.plateRefused (s : Site) (tag : Byte) (reason : Word) (he : T.engine s) (hs : T.line s) (h : Within T v w) :
    Within T v (w.plateRefused s tag reason) :=
  Within.plateAnswer s tag he hs (fun e u hu => by
    repeat' split
    all_goals first
      | exact hu.protocolError s he hs
      | exact hu.countStray s he
      | exact hu.refusal s e _ he hs) h

theorem Within.abortAck (s : Site) (tag : Byte) (he : T.engine s) (hs : T.line s) (h : Within T v w) : Within T v (w.abortAck s tag) :=
  Within.answer s tag he (fun e u hu => by
    repeat' split
    all_goals first
      | exact hu
      | exact hu.abortEnds s e he
      | exact hu.protocolError s he hs) h

theorem Within.completeWithdraw (s : Site) (e : Entry) (he : T.engine s) (h : Within T v w) : Within T v (w.completeWithdraw s e) := by
  unfold Work.completeWithdraw
  dsimp only
  split
  · exact (((h.modEngine he _).pageWithdrawn _ _).freeEntry _ _).enterIdle s he
  · exact ((h.modEngine he _).freeEntry _ _).enterIdle s he

theorem Within.withdrawAck (s : Site) (tag : Byte) (he : T.engine s) (hs : T.line s) (h : Within T v w) :
    Within T v (w.withdrawAck s tag) :=
  Within.answer s tag he (fun e u hu => by
    repeat' split
    all_goals first
      | exact hu
      | exact hu.completeWithdraw s e he
      | exact hu.protocolError s he hs) h

theorem Within.offerHeld (s : Site) (k : SlotNo) (g : Nat) (he : T.engine s) (h : Within T v w) : Within T v (w.offerHeld s k g) := by
  unfold Work.offerHeld
  repeat' split
  all_goals first
    | exact h
    | exact ((h.modEngine he _).freeEntry _ _).enterIdle s he
    | exact h.abortEnds s _ he

theorem Within.targetHeld (s : Site) (slot : Byte) (g : Nat) (he : T.engine s) (hs : T.line s) (h : Within T v w) :
    Within T v (w.targetHeld s slot g) := by
  unfold Work.targetHeld
  repeat' split
  · exact h.protocolError s he hs
  · exact h.storeHeld _ _ _ hs
  · exact (h.storeHeld _ _ _ hs).offerHeld _ _ _ he

theorem Within.takeMeasure (c : ConfigWords) (s : Site) (slot count : Byte) (g : Nat) (halves : List (BitVec 16)) (he : T.engine s)
    (hs : T.line s) (h : Within T v w) : Within T v (w.takeMeasure c s slot count g halves) := by
  unfold Work.takeMeasure
  repeat' split
  all_goals first
    | exact h.protocolError s he hs
    | exact h.countStale s hs
    | exact h.evaluate c s _ _ hs

theorem Within.runPress (s : Site) (title edition : Byte) (hs : T.line s) (h : Within T v w) : Within T v (w.runPress s title edition) := by
  unfold Work.runPress
  dsimp only
  repeat' split
  all_goals first
    | exact h
    | exact h.modSiteCounters hs _
    | exact (((h.modEditionSite _ _ _ _).disarm _ _ _).toTitle _ _).toDesk _

theorem Within.emptyQueue (s : Site) (h : Within T v w) : Within T v (w.emptyQueue s) := Within.each (fun _ _ _ hw => hw.freeEntry _ _) h

theorem Within.restartSite (s : Site) (he : T.engine s) (hs : T.line s) (h : Within T v w) : Within T v (w.restartSite s) :=
  ((((h.lineFailure _ s he hs).emptyQueue s).restartColour s hs).restartPages s).toDesk _

/-! ### Timers and the qualifier's events -/

theorem Within.expired (s : Site) {f : Work → Work} (he : T.engine s) (hs : T.line s) (hf : ∀ u, Within T v u → Within T v (f u))
    (h : Within T v w) : Within T v (w.expired s f) := by
  unfold Work.expired
  dsimp only
  split
  · exact (h.modEngine he _).lineFailure _ s he hs
  · exact hf _ (h.modEngine he _)

theorem Within.tAckExpiry (c : ConfigWords) (s : Site) (he : T.engine s) (hs : T.line s) (h : Within T v w) :
    Within T v (w.tAckExpiry c s) := by
  unfold Work.tAckExpiry
  repeat' split
  · exact h.abortEnds s _ he
  · refine Within.expired s he hs (fun u hu => ?_) h
    unfold Work.retryTransfer
    split
    all_goals first
      | exact hu
      | exact (hu.sendFirst s _ he).modEngine he _
      | exact (hu.modEngine he _).pump c s he
  · exact h

theorem Within.tConfExpiry (s : Site) (he : T.engine s) (hs : T.line s) (h : Within T v w) : Within T v (w.tConfExpiry s) := by
  unfold Work.tConfExpiry
  split
  · refine Within.expired s he hs (fun u hu => ?_) h
    unfold Work.confirmAgain
    dsimp only
    split
    · exact (((hu.sendFirst s _ he).modEngine he _).modEngine he _).setEntryState _ _
    · exact (hu.sendFirst s _ he).modEngine he _
  · exact h

theorem Within.badFrame (c : ConfigWords) (s : Site) (he : T.engine s) (hs : T.line s) (h : Within T v w) : Within T v (w.badFrame c s) := by
  unfold Work.badFrame
  dsimp only
  repeat' split
  · exact (h.modQual hs _).lineFailure _ s he hs
  · exact (h.modQual hs _).modQual hs _
  · exact h

theorem Within.framingLoss (s : Site) (he : T.engine s) (hs : T.line s) (h : Within T v w) : Within T v (w.framingLoss s) := by
  unfold Work.framingLoss
  split
  · exact (h.modQual hs _).lineFailure _ s he hs
  · exact h

theorem Within.clearLine (s : Site) (he : T.engine s) (hs : T.line s) (h : Within T v w) : Within T v (w.clearLine s) :=
  ((h.modQual hs _).modEngine he _).setArbiter hs _

theorem Within.lineReset (s : Site) (he : T.engine s) (hs : T.line s) (h : Within T v w) : Within T v (w.lineReset s) :=
  ((h.lineFailure _ s he hs).clearLine s he hs).beginTraining _ s hs

theorem Within.lineRetry (s : Site) (hs : T.line s) (h : Within T v w) : Within T v (w.lineRetry s).1 := by
  unfold Work.lineRetry
  split
  · exact h.beginTraining _ s hs
  · split
    · exact h.beginTraining _ s hs
    · dsimp only
      exact Within.modQual hs _ h
  · exact h
  · exact h

theorem Within.pendingRetrain (s : Site) (hs : T.line s) (h : Within T v w) : Within T v (w.pendingRetrain s) := by
  unfold Work.pendingRetrain
  split
  · exact h.beginTraining _ s hs
  · exact h

theorem Within.trainWord (c : ConfigWords) (s : Site) (received : Option Word) (he : T.engine s) (hs : T.line s) (h : Within T v w) :
    Within T v (w.trainWord c s received) := by
  unfold Work.trainWord
  dsimp only
  repeat' split
  · exact (h.setQual hs _).modEngine he _
  · exact h.setQual hs _
  · exact h

theorem Within.windowEnd (c : ConfigWords) (s : Site) (hs : T.line s) (h : Within T v w) : Within T v (w.windowEnd c s) := by
  unfold Work.windowEnd
  dsimp only
  repeat' split
  · exact (h.setQual hs _).trainingPassed _ s hs
  · exact (h.setQual hs _).trainingPassed _ s hs
  · exact h.attemptFailed c _ _ s hs
  · exact h

theorem Within.noLock (c : ConfigWords) (s : Site) (hs : T.line s) (h : Within T v w) : Within T v (w.noLock c s) := by
  unfold Work.noLock
  dsimp only
  split
  · exact h.attemptFailed c _ _ s hs
  · exact h

theorem Within.attemptStuck (c : ConfigWords) (s : Site) (hs : T.line s) (h : Within T v w) : Within T v (w.attemptStuck c s) := by
  unfold Work.attemptStuck
  dsimp only
  split
  · exact (h.setQual hs _).trainingDown c s hs
  · exact h

theorem Within.tRetryExpiry (s : Site) (hs : T.line s) (h : Within T v w) : Within T v (w.tRetryExpiry s) := by
  unfold Work.tRetryExpiry
  split
  · exact h.beginTraining _ s hs
  · exact h

end Sys2Proof.Machine
end

