-- ==== Sys2Proof/Laws/WithinMessages.lean ====
section
/-! SUPPORT. What the messages of the ports and the part's own steps touch (Laws/Within.lean). -/

namespace Sys2Proof.Machine

set_option Elab.async false

variable {T : Touch} {v w : Work}

/-! ### Submission Parsers -/

@[simp] theorem Within.submitResult (t : Title) (p : PendingResult) (h : Within T v w) : Within T v (w.submitResult t p) := h.toTitle _ _

@[simp] theorem Within.submitProtocol (t : Title) (h : Within T v w) : Within T v (w.submitProtocol t) := h.toTitle _ _

theorem Within.rejectOpen (t : Title) (r : Result) (hp : T.parsers) (h : Within T v w) : Within T v (w.rejectOpen t r) := by
  unfold Work.rejectOpen
  dsimp only
  split
  · exact (h.freeImage _).setParser hp _ _
  · exact h

theorem Within.endOpen (t : Title) (i : OpenImage) (r : Result) (hp : T.parsers) (h : Within T v w) : Within T v (w.endOpen t i r) :=
  ((h.freeImage _).submitResult _ _).setParser hp _ _

theorem Within.endDiscard (t : Title) (hp : T.parsers) (h : Within T v w) : Within T v (w.endDiscard t) := by
  unfold Work.endDiscard
  split
  · exact (h.submitResult _ _).setParser hp _ _
  · exact h.setParser hp _ _

theorem Within.parserKilled (key : PageKey) (hp : T.parsers) (h : Within T v w) : Within T v (w.parserKilled key) := by
  unfold Work.parserKilled
  split
  · split
    · exact h.rejectOpen _ _ hp
    · exact h
  · exact h

theorem Within.parserClosed (t : Title) (code : Nat) (hp : T.parsers) (h : Within T v w) : Within T v (w.parserClosed t code) := by
  unfold Work.parserClosed
  split
  · split
    · exact h.rejectOpen _ _ hp
    · exact h
  · exact h

theorem Within.parserResync (t : Title) (hp : T.parsers) (h : Within T v w) : Within T v (w.parserResync t) := by
  unfold Work.parserResync
  split
  · exact h.endOpen _ _ _ hp
  · exact h.endDiscard _ hp
  · exact h

theorem Within.refuseBegin (t : Title) (m : BeginMsg) (r : Result) (hp : T.parsers) (h : Within T v w) : Within T v (w.refuseBegin t m r) :=
  h.setParser hp _ _

/-- Only a version above the released version makes a new candidate, where the candidate's own is above it (R2, R6). -/
theorem beginAnswer_new {p : PageRec} {sep : Sep} {n : Nat} (hp : p.candidateAbove) (h : p.beginAnswer sep n = .ok .new) :
    p.releasedVersion < n := by
  have hr : p.resupplyAnswer sep n ≠ .ok .new := by
    unfold PageRec.resupplyAnswer
    repeat' split
    all_goals simp
  unfold PageRec.beginAnswer at h
  split at h
  · cases h
  · split at h
    · rename_i c hc
      repeat' split at h
      all_goals first
        | cases h; done
        | exact absurd h hr
        | skip
      rename_i hlt
      exact Nat.lt_trans (hp c hc) (by simpa using hlt)
    · split at h
      · rename_i hlt
        simpa using hlt
      · exact absurd h hr

theorem beginChecks_new {t : Title} {m : BeginMsg} {sep : Sep} (h : w.beginChecks t m = .ok (sep, .new)) :
    ∃ p s, w.findPage (beginKey t m) = some p ∧ p.beginAnswer s m.version.toNat = .ok .new := by
  unfold Work.beginChecks at h
  split at h
  · cases h
  · split at h
    · cases h
    · rename_i p hp
      repeat' split at h
      all_goals first
        | cases h; done
        | skip
      rename_i ha
      cases h
      exact ⟨p, _, hp, ha⟩

theorem takeImage_pages {key : PageKey} {sep : Sep} {version bands id : Nat} {u : Work}
    (hu : w.takeImage key sep version bands = some (id, u)) : u.pages = w.pages := by
  unfold Work.takeImage at hu
  split at hu <;> cases hu
  rfl

theorem Within.beginIdle (t : Title) (m : BeginMsg) (hp : T.parsers) (h : Within T v w) : Within T v (w.beginIdle t m) := by
  unfold Work.beginIdle
  split
  · exact h.refuseBegin _ _ _ hp
  · rename_i hc
    split
    · exact h.refuseBegin _ _ _ hp
    · rename_i u hu
      have hi := h.takeImage hu
      split
      · refine (hi.newCandidate _ _ fun hs q hq => ?_).setParser hp _ _
        obtain ⟨p, s, hf, ha⟩ := beginChecks_new hc
        rw [findPage_congr (takeImage_pages hu), hf] at hq
        obtain rfl := Option.some.inj hq
        exact beginAnswer_new ((h.pages hs).2 _ (List.mem_of_find?_eq_some hf)) ha
      · exact hi.setParser hp _ _
      · exact hi.setParser hp _ _

theorem Within.imageBegin (t : Title) (m : BeginMsg) (hp : T.parsers) (h : Within T v w) : Within T v (w.imageBegin t m) := by
  unfold Work.imageBegin
  split
  · exact (h.endOpen _ _ _ hp).beginIdle _ _ hp
  · exact (h.endDiscard _ hp).beginIdle _ _ hp
  · exact h.beginIdle _ _ hp

theorem Within.takeBand (t : Title) (mark : Byte) (payload : List Byte) (hp : T.parsers) (h : Within T v w) :
    Within T v (w.takeBand t mark payload).1 := by
  unfold Work.takeBand
  dsimp only
  split
  · rename_i i _ _
    split
    · exact h.rejectOpen _ _ hp
    · split
      · have hb := h.placeBand i.image (w.parser t).bandCounter payload.length
        split
        · rename_i hu
          rw [hu] at hb
          exact Within.setParser hp _ _ hb
        · rename_i hu
          rw [hu] at hb
          exact Within.setParser hp _ _ hb
      · exact Within.setParser hp _ _ h
  · exact h
  · exact h.submitProtocol _

theorem Within.attach {a : Option Acceptance} {i : OpenImage} {u : Work} (hu : w.attach a i = some u) (h : Within T v w) : Within T v u := by
  unfold Work.attach at hu
  split at hu
  · exact h.attachResupply hu
  · exact h.attachFill hu

theorem Within.sealOpen (t : Title) (i : OpenImage) (hp : T.parsers) (h : Within T v w) : Within T v (w.sealOpen t i) := by
  unfold Work.sealOpen
  dsimp only
  split
  · rename_i hu
    exact ((h.attach hu).submitResult _ _).setParser hp _ _
  · exact h.endOpen _ _ _ hp

theorem Within.imageEnd (t : Title) (total : Nat) (crc : Word) (hp : T.parsers) (h : Within T v w) : Within T v (w.imageEnd t total crc) := by
  unfold Work.imageEnd
  dsimp only
  split
  · split
    · exact h.endOpen _ _ _ hp
    · split
      · exact h.sealOpen _ _ hp
      · exact h.endOpen _ _ _ hp
  · exact h.endDiscard _ hp
  · exact h.submitProtocol _

/-! ### Editions and pages -/

theorem Within.addSite (c : ConfigWords) (t : Title) (code : Nat) (s : Site) (d : SiteDecl) (h : Within T v w) :
    Within T v (w.addSite c t code s d) := (h.setEditionSite _ _ _ _).arm _ _ _ _

theorem Within.moveCutoff (t : Title) (code : Nat) (s : Site) (old new : Nat) (st : SiteState) (h : Within T v w) :
    Within T v (w.moveCutoff t code s old new st) := by
  unfold Work.moveCutoff
  split
  · exact h.moveDeadline _ _ _ _
  · split
    · exact Within.arm _ _ _ _ (Within.setLateFlags _ _ _ _ (Within.modEditionSite _ _ _ _ h))
    · exact h
  all_goals exact h

theorem Within.updateSite (c : ConfigWords) (t : Title) (code : Nat) (s : Site) (d : SiteDecl) (x : EditionSite) (h : Within T v w) :
    Within T v (w.updateSite c t code s d x) := by
  unfold Work.updateSite
  dsimp only
  split
  · exact Within.giveDeadline _ _ _ _ (Within.evaluateReadiness _ _ _ (Within.modEditionSite _ _ _ _ (Within.moveCutoff _ _ _ _ _ _
      (Within.modEditionSite _ _ _ _ h))))
  · exact Within.evaluateReadiness _ _ _ (Within.modEditionSite _ _ _ _ (Within.moveCutoff _ _ _ _ _ _ (Within.modEditionSite _ _ _ _ h)))

theorem Within.declareSite (c : ConfigWords) (t : Title) (code : Nat) (d : SiteDecl) (h : Within T v w) :
    Within T v (w.declareSite c t code d) := by
  unfold Work.declareSite
  split
  · exact h
  · split
    · exact h.addSite _ _ _ _ _
    · exact h.updateSite _ _ _ _ _ _

theorem Within.prepareEdition (t : Title) (code : Nat) (ds : List SiteDecl) (h : Within T v w) : Within T v (w.prepareEdition t code ds) := by
  unfold Work.prepareEdition
  split
  · exact h.upd
  · exact Within.each (fun s _ u hu => (hu.disarm _ _ _).setEditionSite _ _ _ _) h

theorem Within.editionDeclare (c : ConfigWords) (t : Title) (edition : Byte) (ds : List SiteDecl) (h : Within T v w) :
    Within T v (w.editionDeclare c t edition ds) := by
  unfold Work.editionDeclare
  split
  · exact h.toTitle _ _
  · exact Within.toTitle _ _ (Within.each (fun d _ u hu => hu.declareSite _ _ _ _) (h.prepareEdition _ _ _))

theorem Within.editionRetire (t : Title) (edition : Byte) (h : Within T v w) : Within T v (w.editionRetire t edition) := by
  unfold Work.editionRetire
  split
  · exact h.toTitle _ _
  · split
    · exact h.toTitle _ _
    · exact h.toTitle _ _
    · exact h.toTitle _ _
    · exact Within.freeEdition _ _ (Within.toTitle _ _ (Within.retirePages _ _ (h.modEdition _ _ _)))

/-- A new page's record goes to the end of a sound table. -/
theorem Within.takePage (d : PageDecl) (hd : w.findPage d.key = none) (h : Within T v w) :
    Within T v { w with pages := w.pages ++ [PageRec.fresh d] } := by
  refine h.upd (pages := fun hw => ⟨?_, fun p hp => ?_⟩)
  · show ((w.pages ++ [PageRec.fresh d]).map PageRec.key).Nodup
    rw [List.map_append, List.nodup_append]
    refine ⟨hw.1, by simp, fun a ha b hb => ?_⟩
    obtain ⟨p, hp, rfl⟩ := List.mem_map.mp ha
    obtain ⟨q, hq, rfl⟩ := List.mem_map.mp hb
    rw [List.mem_singleton.mp hq]
    have := List.find?_eq_none.mp hd p hp
    exact fun he => this (beq_iff_eq.mpr he)
  · rcases List.mem_append.mp hp with hp | hp
    · exact hw.2 p hp
    · rw [List.mem_singleton.mp hp]
      intro c hc
      cases hc

theorem Within.declarePage (d : PageDecl) (h : Within T v w) : Within T v (w.declarePage d) := by
  unfold Work.declarePage
  split
  · rename_i hd
    exact h.takePage d hd
  · have hm : Within T v (w.modPage d.key (fun p => { p with colour := d.colour, declMask := d.mask, declSlot := d.slot })) :=
      h.modPageSame _ (fun _ => by rfl) (fun _ => by rfl) (fun _ => by rfl)
    dsimp only
    split
    · exact hm
    · unfold Work.maskChanged
      split
      · split
        · exact hm.joinRelease _
        · exact hm
      · split
        · exact hm.joinRelease _
        · exact hm

theorem Within.pageDeclare (t : Title) (edition page colour mask slot : Byte) (h : Within T v w) :
    Within T v (w.pageDeclare t edition page colour mask slot) := by
  unfold Work.pageDeclare
  dsimp only
  split
  · exact h.toTitle _ _
  · split
    · exact h.toTitle _ _
    · exact (h.declarePage _).toTitle _ _

/-! ### Desk commands -/

theorem Within.answerQuery (p : PortId) (type tag : Byte) (r : Result × List Byte) (h : Within T v w) :
    Within T v (w.answerQuery p type tag r) := by
  unfold Work.answerQuery
  split
  · exact h.toTitle _ _
  · exact h.toDesk _

theorem Within.approve (title edition page version : Byte) (h : Within T v w) : Within T v (w.approve title edition page version).1 := by
  unfold Work.approve
  split
  · exact h
  · split
    · exact h
    · split
      · unfold Work.approvePage
        dsimp only
        split
        · exact h
        · rename_i c hc
          have hm : Within T v (w.modPage _ (fun p => { p with candidate := some { c with approved := true } })) :=
            h.modPage _ (fun _ => by rfl) fun p hp ha d hd => by
              cases hd
              rw [hp] at hc
              exact ha c hc
          split
          · exact h
          · split
            · exact hm.joinRelease _
            · exact hm
      · exact h

theorem Within.kill (c : ConfigWords) (title edition page : Byte) (ht : ∀ i, T.engine i) (hp : T.parsers) (h : Within T v w) :
    Within T v (w.kill c title edition page).1 := by
  unfold Work.kill
  split
  · exact h
  · split
    · exact h
    · split
      · exact h
      · split
        · exact h
        · exact (((((h.killPage _).killPlates c _ ht).leaveCount _ _).toTitle _ _).parserKilled _ hp)

theorem Within.changeHold (set : Bool) (title edition : Byte) (hh : T.holds) (h : Within T v w) :
    Within T v (w.changeHold set title edition).1 := by
  have ht (t : Title) : Within T v { w with titleHold := w.titleHold.put t set } := h.upd (holds := fun hn => absurd hh hn)
  unfold Work.changeHold
  split
  · exact h
  · rename_i t _
    split
    · show Within T v (w.holdTitle t set)
      unfold Work.holdTitle
      split
      · exact h
      · exact ((ht t).holdChanged _ _).toTitle _ _
    · split
      · exact h
      · split
        · exact h
        · split
          · exact h
          · rename_i r _ _
            show Within T v (w.holdEdition r set)
            unfold Work.holdEdition
            split
            · exact h
            · exact ((h.modEdition _ _ _).holdChanged _ _).toTitle _ _

theorem Within.takeClose (c : ConfigWords) (t : Title) (code : Nat) (sites : SiteSet) (ht : ∀ i, T.engine i) (hp : T.parsers)
    (h : Within T v w) : Within T v (w.takeClose c t code sites) := by
  have h1 : Within T v (w.each (Work.closeSite t code) (SiteSet.toList sites)) :=
    Within.each (fun s _ u hu => (hu.modEditionSite _ _ _ _).disarm _ _ _) h
  have h2 := ((h1.closeBacklog t code sites).closeEntries c t code sites ht).toTitle t (.closed code sites)
  unfold Work.takeClose Work.closeEdition
  dsimp only
  split
  · exact h2
  · split
    · exact (h2.modEdition _ _ _).parserClosed _ _ hp
    · exact h2

theorem Within.close (c : ConfigWords) (title edition site : Byte) (ht : ∀ i, T.engine i) (hp : T.parsers) (h : Within T v w) :
    Within T v (w.close c title edition site).1 := by
  unfold Work.close
  split
  · exact h
  · split
    · exact h
    · split
      · exact h
      · split
        · exact h
        · unfold Work.closeRecord
          split
          · exact h
          · split
            · exact h
            · dsimp only
              split
              · exact h
              · exact h.takeClose c _ _ _ ht hp

theorem Within.clockTo (n : Nat) (hc : T.clock) (h : Within T v w) : Within T v (w.clockTo n) := by
  have hx : Within T v { w with clock := { set := true, value := n } } := h.upd (clock := fun hn => absurd hc hn)
  exact hx.expirePassed

theorem Within.setClock (mode : Byte) (x : Word) (hc : T.clock) (h : Within T v w) : Within T v (w.setClock mode x).1 := by
  unfold Work.setClock
  split
  · exact h.clockTo _ hc
  · split
    · exact h
    · dsimp only
      split
      · exact h
      · exact h.clockTo _ hc
  · exact h

theorem Within.clockSecond (hc : T.clock) (h : Within T v w) : Within T v w.clockSecond := by
  have hx (n : Nat) : Within T v { w with clock := { w.clock with value := n } } := h.upd (clock := fun hn => absurd hc hn)
  unfold Work.clockSecond
  split
  · exact (hx _).expirePassed
  · exact h

theorem Within.colourClear (site slot : Byte) (hs : ∀ i, siteOf site = some i → T.line i) (h : Within T v w) :
    Within T v (w.colourClear site slot).1 := by
  unfold Work.colourClear
  split
  · exact h
  · rename_i i hi
    split
    · exact h
    · split
      · exact h.clearHold _ _ _ (hs i hi)
      · exact h

theorem Within.retryLine (site : Byte) (hs : ∀ i, siteOf site = some i → T.line i) (h : Within T v w) :
    Within T v (w.retryLine site).1 := by
  unfold Work.retryLine
  split
  · exact h
  · rename_i i hi
    exact h.lineRetry i (hs i hi)

/-! ### Ports -/

theorem Within.portStalled (p : PortId) (cause : PortCause) (h : Within T v w) : Within T v (w.portStalled p cause) :=
  (h.notify _ _).raiseError _

theorem Within.afterByte (p : PortId) (cause : Option PortCause) (h : Within T v w) : Within T v (w.afterByte p cause) := by
  unfold Work.afterByte
  split
  · exact h.portStalled _ _
  · exact h

theorem afterSending_length (k : Nat) (q : List NoticeRec) (sent : Nat) : (afterSending k q sent).1.length ≤ q.length := by
  induction q generalizing k sent with
  | nil => simp [afterSending]
  | cons r rest ih =>
    unfold afterSending
    split
    · exact Nat.le_refl _
    · exact Nat.le_succ_of_le (ih _ _)

theorem Within.sendWord (t : Title) (order : ByteOrder) (h : Within T v w) :
    Within T v (w.setOut (.title t) ((w.outOf (.title t)).sendWord order)) :=
  h.setOut _ _ fun hb => by
    unfold Outbox.sendWord
    split
    · exact hb _
    · exact Nat.le_trans (afterSending_length _ _ _) (hb _)

theorem Within.sendChar (h : Within T v w) : Within T v (w.setOut .desk (w.outOf .desk).sendChar) :=
  h.setOut _ _ fun hb => by
    unfold Outbox.sendChar
    split
    · exact hb _
    · exact Nat.le_trans (afterSending_length _ _ _) (hb _)

end Sys2Proof.Machine
end

