-- ==== Sys2Proof/Laws/Steps.lean ====
section
/-! SUPPORT. What a command touches: every command answers a next state, and outside the resets and START its working state came of the one
before within what the command may touch. -/

namespace Sys2Proof.Machine

set_option Elab.async false

/-- What a command may touch. -/
def touchOf (c : Instr) : Touch :=
  { engine := fun i => lineOf c = some i ∨ c.reachesTransfers = true
    line := fun i => recordsOf c = some i
    slots := c.loadsSlots = true
    clock := c.movesClock = true
    holds := c.changesHolds = true
    parsers := c.reachesParsers = true
    scrub := c.scrubs = true }

variable {T : Touch} {s : State}

/-- A message stays within `T` when its effect on the working state does. -/
theorem Within.message {p : PortId} {i : Instr} {f : Work → Work} (hf : Within T s.work (f s.work)) :
    Within T s.work (s.message p i f).work := by
  unfold State.message
  split
  · exact hf
  · exact Within.refl _ _

theorem Within.deskMessage {i : Instr} {type tag : Byte} {f : Work → Work × Result} (hf : Within T s.work (f s.work).1) :
    Within T s.work (s.deskMessage i type tag f).work :=
  Within.message (hf.toDesk _)

theorem message_pending (p : PortId) (i : Instr) (f : Work → Work) (s : State) : (s.message p i f).pending = s.pending := by
  unfold State.message
  split <;> simp

theorem giveByte_pending (p : PortId) (b : Byte) (s : State) : (s.giveByte p b).pending = s.pending := by
  unfold State.giveByte
  simp

theorem takeBand_pending (t : Title) (mark : Byte) (payload : List Byte) (s : State) : (s.takeBand t mark payload).pending = s.pending := by
  unfold State.takeBand
  split <;> simp

/-- Every command has a next state, in which the same commands wait. -/
theorem exec_next (c : Instr) (s : State) : ∃ t, exec c s = .next t ∧ t.pending = s.pending := by
  cases c <;> first
    | exact ⟨_, rfl, rfl⟩
    | exact ⟨_, rfl, message_pending _ _ _ _⟩
    | skip
  case start =>
    show ∃ t, execStart s = .next t ∧ _
    unfold execStart
    repeat' split
    all_goals exact ⟨_, rfl, rfl⟩
  case lineReset site =>
    show ∃ t, execLineReset site s = .next t ∧ _
    unfold execLineReset
    repeat' split
    all_goals exact ⟨_, rfl, rfl⟩
  case capture site =>
    show ∃ t, execCapture site s = .next t ∧ _
    unfold execCapture
    repeat' split
    all_goals exact ⟨_, rfl, rfl⟩
  case configWrite addr v =>
    show ∃ t, execConfigWrite addr v s = .next t ∧ _
    unfold execConfigWrite
    repeat' split
    all_goals exact ⟨_, rfl, rfl⟩
  case titleWordIn t word =>
    show ∃ u, execTitleWordIn t word s = .next u ∧ _
    unfold execTitleWordIn
    split
    all_goals exact ⟨_, rfl, rfl⟩
  case assemblerByte t =>
    show ∃ u, execAssemblerByte t s = .next u ∧ _
    unfold execAssemblerByte
    dsimp only
    repeat' split
    · exact ⟨_, rfl, rfl⟩
    · exact ⟨_, rfl, rfl⟩
    · exact ⟨_, rfl, giveByte_pending _ _ _⟩
  case resync t =>
    show ∃ u, execResync t s = .next u ∧ _
    unfold execResync
    split
    all_goals exact ⟨_, rfl, rfl⟩
  case deskCharacter ch stop =>
    show ∃ u, execDeskCharacter ch stop s = .next u ∧ _
    unfold execDeskCharacter
    repeat' split
    · exact ⟨_, rfl, rfl⟩
    · exact ⟨_, rfl, rfl⟩
    · refine ⟨_, rfl, ?_⟩
      unfold State.deskFramingError
      split <;> rfl
    · exact ⟨_, rfl, giveByte_pending _ _ _⟩
  case deskBreak =>
    show ∃ u, execDeskBreak s = .next u ∧ _
    unfold execDeskBreak
    split
    all_goals exact ⟨_, rfl, rfl⟩
  case band t mark payload =>
    show ∃ u, execBand t mark payload s = .next u ∧ _
    unfold execBand
    split
    · exact ⟨_, rfl, by rw [takeBand_pending]; simp⟩
    · exact ⟨_, rfl, rfl⟩

  case badFrame f =>
    show ∃ u, execBadFrame f s = .next u ∧ _
    unfold execBadFrame
    split
    all_goals exact ⟨_, rfl, rfl⟩
  case framingLoss g =>
    show ∃ u, execFramingLoss g s = .next u ∧ _
    unfold execFramingLoss
    split
    all_goals exact ⟨_, rfl, rfl⟩
  case frameNotInbound i ft n =>
    show ∃ u, execFrameNotInbound i ft n s = .next u ∧ _
    unfold execFrameNotInbound
    repeat' split
    all_goals exact ⟨_, rfl, rfl⟩

/-- What came of the working state of a command's answer. -/
theorem next_work {o : Host.Outcome State Fault Refusal} {t : State} (ho : o = .next t) {P : Work → Prop}
    (h : ∀ u, o = .next u → P u.work) : P t.work := h t ho

/-- An inbound frame's answer stays within `T` when its effect does. -/
theorem Within.onWork {t : State} {f : Work → Work} (ht : s.onWork f = .next t) (hf : Within T s.work (f s.work)) :
    Within T s.work t.work := by
  cases ht
  exact hf

/-- Outside the resets and START, what a command makes of the working state stays within what it may touch. -/
theorem exec_within {c : Instr} {t : State} (hc : c.isRestart = false) (h : exec c s = .next t) : Within (touchOf c) s.work t.work := by
  cases c
  case hardReset => cases hc
  case softRestart => cases hc
  case start => cases hc
  case lineReset site =>
    change execLineReset site s = .next t at h
    unfold execLineReset at h
    split at h
    · cases h; exact Within.refl _ _
    · rename_i i hi
      split at h <;> cases h
      · exact Within.lineReset i (.inl hi) hi (Within.refl _ _)
      · exact Within.clearLine i (.inl hi) hi (Within.refl _ _)
  case capture site =>
    change execCapture site s = .next t at h
    unfold execCapture at h
    split at h
    · cases h; exact Within.refl _ _
    · rename_i i hi
      cases h
      exact (Within.refl _ s.work).modQual (T := touchOf (.capture site)) (i := i) hi (fun q => { q with snapshot := s.work.snapshotOf i })
  case unknownCommand code => cases h; exact Within.refl _ _
  case configWrite addr x =>
    change execConfigWrite addr x s = .next t at h
    unfold execConfigWrite at h
    repeat' split at h
    all_goals cases h
    · exact Within.refl _ _
    · exact Within.refl _ _
    · unfold State.writeItem
      dsimp only
      split
      · exact Within.pumpAll _ (fun _ => .inr rfl) (Within.refl _ _)
      · exact Within.refl _ _
    · exact Within.refl _ _
  case errorReportRead => cases h; exact (Within.refl _ s.work).upd
  case attentionRead => cases h; exact (Within.refl _ s.work).upd
  case attentionEnableWrite x => cases h; exact Within.refl _ _
  case titleWordIn p word =>
    change execTitleWordIn p word s = .next t at h
    unfold execTitleWordIn at h
    split at h <;> cases h <;> exact Within.refl _ _
  case assemblerByte p =>
    change execAssemblerByte p s = .next t at h
    unfold execAssemblerByte at h
    dsimp only at h
    repeat' split at h
    all_goals cases h
    · exact Within.refl _ _
    · exact Within.refl _ _
    · exact Within.afterByte _ _ (Within.refl _ _)
  case resync p =>
    change execResync p s = .next t at h
    unfold execResync at h
    split at h <;> cases h
    · exact Within.refl _ _
    · exact (Within.parserResync p rfl (Within.refl _ s.work)).toTitle _ _
  case resyncRelease p => cases h; exact Within.refl _ _
  case outboundWordSent p => cases h; exact Within.sendWord _ _ (Within.refl _ _)
  case deskCharacterSent => cases h; exact Within.sendChar (Within.refl _ _)
  case deskCharacter ch stop =>
    change execDeskCharacter ch stop s = .next t at h
    unfold execDeskCharacter at h
    repeat' split at h
    all_goals cases h
    · exact Within.refl _ _
    · exact Within.refl _ _
    · unfold State.deskFramingError
      split
      · exact Within.portStalled _ _ (Within.refl _ _)
      · exact Within.refl _ _
      · exact Within.refl _ _
    · exact Within.afterByte _ _ (Within.refl _ _)
  case deskBreak =>
    change execDeskBreak s = .next t at h
    unfold execDeskBreak at h
    split at h <;> cases h
    · exact Within.refl _ _
    · exact (Within.refl _ s.work).toDesk _
  case editionDeclare p e ds => cases h; exact Within.message (Within.editionDeclare _ _ _ _ (Within.refl _ _))
  case editionRetire p e => cases h; exact Within.message (Within.editionRetire _ _ (Within.refl _ _))
  case editionFreed p e => cases h; exact Within.freeEdition _ _ (Within.refl _ _)
  case pageDeclare p e n colour mask k => cases h; exact Within.message (Within.pageDeclare _ _ _ _ _ _ (Within.refl _ _))
  case imageBegin p m => cases h; exact Within.message (Within.imageBegin _ _ rfl (Within.refl _ _))
  case band p mark payload =>
    change execBand p mark payload s = .next t at h
    unfold execBand at h
    split at h <;> cases h
    · have hb := Within.takeBand p mark payload (T := touchOf (.band p mark payload)) rfl (Within.refl _ s.work)
      unfold State.takeBand
      rw [State.messageTaken_work]
      split <;> rename_i hu <;> rw [hu] at hb <;> exact hb
    · exact Within.refl _ _
  case imageEnd p total crc => cases h; exact Within.message (Within.imageEnd _ _ _ rfl (Within.refl _ _))
  case targetLoad p m => cases h; exact Within.message (Within.targetLoad _ _ _ (fun _ => .inr rfl) rfl (Within.refl _ _))
  case pageQuery p tag a b n => cases h; exact Within.message (Within.answerQuery _ _ _ _ (Within.refl _ _))
  case editionQuery p tag a b => cases h; exact Within.message (Within.answerQuery _ _ _ _ (Within.refl _ _))
  case siteQuery tag a => cases h; exact Within.message (Within.answerQuery _ _ _ _ (Within.refl _ _))
  case colourQuery tag a b => cases h; exact Within.message (Within.answerQuery _ _ _ _ (Within.refl _ _))
  case approve tag a b n x => cases h; exact Within.deskMessage (Within.approve _ _ _ _ (Within.refl _ _))
  case kill tag a b n => cases h; exact Within.deskMessage (Within.kill _ _ _ _ (fun _ => .inr rfl) rfl (Within.refl _ _))
  case hold tag a b => cases h; exact Within.deskMessage (Within.changeHold _ _ _ rfl (Within.refl _ _))
  case unhold tag a b => cases h; exact Within.deskMessage (Within.changeHold _ _ _ rfl (Within.refl _ _))
  case close tag a b site => cases h; exact Within.deskMessage (Within.close _ _ _ _ (fun _ => .inr rfl) rfl (Within.refl _ _))
  case setClock tag mode x => cases h; exact Within.deskMessage (Within.setClock _ _ rfl (Within.refl _ _))
  case lineRetry tag site => cases h; exact Within.deskMessage (Within.retryLine _ (fun _ hi => hi) (Within.refl _ _))
  case colourClear tag site slot => cases h; exact Within.deskMessage (Within.colourClear _ _ (fun _ hi => hi) (Within.refl _ _))
  case clockSecond => exact Within.onWork h (Within.clockSecond rfl (Within.refl _ _))
  case cutoffExpiry => exact Within.onWork h (Within.expireFirst (Within.refl _ _))
  case pendingRetrain i => exact Within.onWork h (Within.pendingRetrain i rfl (Within.refl _ _))
  case admission => exact Within.onWork h (Within.admission _ (fun _ => .inr rfl) (Within.refl _ _))
  case targetWantServed => exact Within.onWork h (Within.serveMarkedWants (Within.refl _ _))
  case handOver i => exact Within.onWork h (Within.handOver _ i (.inl rfl) rfl (Within.refl _ _))
  case frameLeftLine i => exact Within.onWork h (Within.frameLeftLine _ i (.inl rfl) (Within.refl _ _))
  case bandReadDone i ecc => exact Within.onWork h (Within.bandReadDone _ _ i _ (.inl rfl) (Within.refl _ _))
  case scrub ecc => exact Within.onWork h (Within.scrubStep _ rfl (Within.refl _ _))
  case openAck i tag r =>
    exact Within.onWork h (Within.inbound i rfl (fun _ hu => hu.openAck _ i _ _ (.inl rfl) rfl) (Within.refl _ _))
  case bandAck i tag n =>
    exact Within.onWork h (Within.inbound i rfl (fun _ hu => hu.bandAck _ i _ _ (.inl rfl) rfl) (Within.refl _ _))
  case plateDone i tag => exact Within.onWork h (Within.inbound i rfl (fun _ hu => hu.plateDone i _ (.inl rfl) rfl) (Within.refl _ _))
  case plateRefused i tag r =>
    exact Within.onWork h (Within.inbound i rfl (fun _ hu => hu.plateRefused i _ _ (.inl rfl) rfl) (Within.refl _ _))
  case abortAck i tag => exact Within.onWork h (Within.inbound i rfl (fun _ hu => hu.abortAck i _ (.inl rfl) rfl) (Within.refl _ _))
  case targetHeld i k g =>
    exact Within.onWork h (Within.inbound i rfl (fun _ hu => hu.targetHeld i _ _ (.inl rfl) rfl) (Within.refl _ _))
  case withdrawAck i tag => exact Within.onWork h (Within.inbound i rfl (fun _ hu => hu.withdrawAck i _ (.inl rfl) rfl) (Within.refl _ _))
  case pressRun i a b => exact Within.onWork h (Within.inbound i rfl (fun _ hu => hu.runPress i _ _ rfl) (Within.refl _ _))
  case measure i k n g hs =>
    exact Within.onWork h (Within.inbound i rfl (fun _ hu => hu.takeMeasure _ i _ _ _ _ (.inl rfl) rfl) (Within.refl _ _))
  case siteRestart i => exact Within.onWork h (Within.inbound i rfl (fun _ hu => hu.restartSite i (.inl rfl) rfl) (Within.refl _ _))
  case tAckExpiry i => exact Within.onWork h (Within.tAckExpiry _ i (.inl rfl) rfl (Within.refl _ _))
  case tConfExpiry i => exact Within.onWork h (Within.tConfExpiry i (.inl rfl) rfl (Within.refl _ _))
  case badFrame f =>
    change execBadFrame f s = _ at h
    unfold execBadFrame at h
    split at h
    · exact Within.onWork h (Within.badFrame _ f.line (.inl rfl) rfl (Within.refl _ _))
    · cases h; exact Within.refl _ _
  case framingLoss g =>
    change execFramingLoss g s = _ at h
    unfold execFramingLoss at h
    split at h
    · exact Within.onWork h (Within.framingLoss g.line (.inl rfl) rfl (Within.refl _ _))
    · cases h; exact Within.refl _ _
  case trainWordPeriod i r => exact Within.onWork h (Within.trainWord _ i _ (.inl rfl) rfl (Within.refl _ _))
  case attemptNoLock i => exact Within.onWork h (Within.noLock _ i rfl (Within.refl _ _))
  case attemptStuck i => exact Within.onWork h (Within.attemptStuck _ i rfl (Within.refl _ _))
  case measureWindowEnd i => exact Within.onWork h (Within.windowEnd _ i rfl (Within.refl _ _))
  case tRetryExpiry i => exact Within.onWork h (Within.tRetryExpiry i rfl (Within.refl _ _))
  case frameNotInbound i ft n =>
    change execFrameNotInbound i ft n s = _ at h
    unfold execFrameNotInbound at h
    split at h
    · exact Within.onWork h (Within.badFrame _ i (.inl rfl) rfl (Within.refl _ _))
    · split at h
      · cases h; exact Within.refl _ _
      · exact Within.onWork h (Within.inbound i rfl (fun _ hu => hu.protocolError i (.inl rfl) rfl) (Within.refl _ _))

end Sys2Proof.Machine
end

