-- ==== Sys2Proof/Tests/Slice0.lean ====
section
/-! SUPPORT. Tests: ill-formed commands the check refuses, values the spec writes out, small steps of the commands, and for each statement with
hypotheses a witness that meets them, with every clause at a boundary of its range. -/

namespace Sys2Proof.Tests

open Sys2Proof.Machine

set_option Elab.async false

/-! ### Small states -/

/-- The state a step answers. -/
def after (o : Host.Outcome State Fault Refusal) : State :=
  match o with
  | .next s => s
  | .fault _ | .refused _ => State.reset

/-- The part in RUN, every table empty and every line DOWN. -/
def running : State := { State.reset with svc := { State.reset.svc with phase := .run } }

/-- A state with its working state changed. -/
def on (f : Work → Work) (s : State) : State := { s with work := f s.work }

/-- Line S0 with a level. -/
def line (v : Level) (s : State) : State := on (Work.modQual 0 (fun q => { q with level := v })) s

/-- Line S0 with a changed transfer machine. -/
def machine (f : Engine → Engine) (s : State) : State := on (Work.modEngine 0 f) s

/-- Line S0 with a changed qualifier. -/
def qualifier (f : Qualifier → Qualifier) (s : State) : State := on (Work.modQual 0 f) s

def key : PageKey := { title := .a, edition := 1, page := 1 }

/-- An edition of title A with one edition-site, S0. -/
def edition (st : EditionState) (site : SiteState) (cutoff : Nat) : EditionRec :=
  { title := .a, code := 1, state := st, hold := false
    sites := tput (Vector.replicate 8 none) 0 (some
      { pressStart := cutoff + 1800, cutoff := cutoff, pageCount := 1, delivered := 0, state := site, lateMark := false }) }

def refs : ImageRefs := { c := none, m := none, y := none, k := some 0 }

def released (version : Nat) : Released :=
  { version := version, images := refs, mask := 1#8, slot := 0, generation := 0, resupply := 0#4 }

def candidate (version : Nat) (st : CandidateState) : Candidate :=
  { version := version, images := if st = .complete then refs else .none, state := st, approved := false }

/-- A MONO page declared for S0 and S1. -/
def page (st : PageState) (r : Option Released) (c : Option Candidate) : PageRec :=
  { key := key, colour := .mono, declMask := 3#8, declSlot := 0, state := st, released := r, candidate := c
    sites := Vector.replicate 8 { held := 0, progress := 0#4 } }

def image (st : ImageState) (count : Nat) : ImageRec :=
  { id := 0, key := key, sep := .k, version := 1, bandCount := 2, bytesStored := 3, bandsStored := 2, head := some 0, tail := some 0,
    extentsHeld := 1, state := st, count := count }

def extent : Extent := { number := 0, holder := 0, next := none, used := 11, firstBand := 0 }

/-- Entry 0 of S0: a PLATE of the page, of its only separation. -/
def plate (st : EntryState) : Entry :=
  { number := 0, kind := .plate, site := 0, key := some key, sep := some .k, version := 1, image := some 0, slot := some 0,
    generation := 0, deadline := some 100, late := false, state := st, gates := .none, acked := 0, refusals := 0, cause := none, seq := 0 }

/-- Entry 1 of S0: a TARGET of slot 0 at generation 1. -/
def target (st : EntryState) : Entry :=
  { plate st with number := 1, kind := .target, key := none, sep := none, image := none, generation := 1, deadline := none, seq := 1 }

/-- Entry 2 of S0: a WITHDRAW of the page. -/
def withdraw (st : EntryState) : Entry :=
  { plate st with number := 2, kind := .withdraw, sep := none, image := none, slot := none, deadline := none, seq := 2 }

/-- The page LIVE with version 1, its image SEALED with one band in extent 0, and an edition. -/
def printing : State :=
  line .up (on (fun w => { w with
    editions := [edition .opened .waiting 100], pages := [page .live (some (released 1)) none], images := [image .sealed 2]
    extents := [extent], freeExtents := 4095, used := { a := 1, b := 0 } }) running)

/-- A transfer of an entry on line S0, in a state, with tag 1. -/
def carrying (e : Entry) (st : TransferState) : State :=
  machine (fun g => { g with state := st, current := some e.number, tag := 1, counter := 1 })
    (on (fun w => { w with entries := [e] }) printing)

/-- A parser of Title A with an image open on record 0 of the store. -/
def submitting (bands : Nat) (storing : Bool) : State :=
  on (fun w => ({ w with
    pages := [page .opened none (some (candidate 1 .collecting))], editions := [edition .opened .waiting 100]
    images := [{ image .filling 0 with head := none, tail := none, extentsHeld := 0, bytesStored := 0, bandsStored := 0 }] } :
      Work).setParser .a { Parser.reset with
        state := .opened, image := some { image := 0, key := key, sep := .k, version := 1 }, acceptance := some .new, declaredBands := 2
        declaredBytes := 3, bandCounter := bands, byteCount := bands, storing := storing }) running

def pending : PendingResult := { result := .bandTooLong, key := key, sepCode := 3, version := 1, bands := 1, bytes := 1 }

/-- A parser of Title A in DISCARD. -/
def discarding : State :=
  on (Work.setParser .a { Parser.reset with state := .discard, result := some pending }) running

def begin : BeginMsg :=
  { edition := 1#8, page := 1#8, separation := 3#8, version := 1#8, bandCount := 1#16, width := 0#32, height := 0#32, totalBytes := 1#32 }

def load : LoadMsg :=
  { slot := 0#8, mask := 3#8, name0 := 0x41#8, name1 := 0x20#8, name2 := 0x30#8, name3 := 0x5A#8, patchCount := 1#8
    records := [3#8, 100#8, 0x0F#8, 0xA0#8, 0x01#8, 0xF4#8] }

/-! ### Well-formed commands -/

theorem test_unknownCommand_of_a_command_is_refused :
    [1#8, 2#8, 3#8, 4#8].all (fun c => !(Instr.unknownCommand c).wellFormed) = true ∧ (Instr.unknownCommand 5#8).wellFormed = true := by
  decide

theorem test_configWrite_of_a_service_register_is_refused :
    (Instr.configWrite 0x011#12 0#32).wellFormed = false ∧ (Instr.configWrite 0x022#12 0#32).wellFormed = false
      ∧ (Instr.configWrite 0x040#12 0#32).wellFormed = true := by decide

theorem test_nine_sites_are_refused :
    (Instr.editionDeclare .a 1#8 (List.replicate 9 { site := 0#8, pressStart := 0#32, pageCount := 0#8 })).wellFormed = false := by decide

theorem test_payload_past_the_envelope_is_refused :
    (Instr.band .a 0#8 (List.replicate 262145 0#8)).wellFormed = false := by
  have h (n : Nat) (hn : 262144 < n) : (Instr.band .a 0#8 (List.replicate n 0#8)).wellFormed = false := by
    simp [Instr.wellFormed, Nat.ble_eq, Bool.eq_false_iff, hn]
  exact h 262145 (by decide)

theorem test_long_patch_records_are_refused :
    (Instr.targetLoad .a { load with records := List.replicate 145 0#8 }).wellFormed = false := by
  decide +kernel

theorem test_odd_halves_are_refused : (Instr.measure 0 0#8 1#8 1#16 [0#16]).wellFormed = false := by decide

theorem test_inbound_frame_is_no_protocol_error :
    (Instr.frameNotInbound 0 0x81#8 1#16).wellFormed = false ∧ (Instr.frameNotInbound 0 0x81#8 2#16).wellFormed = true
      ∧ (Instr.frameNotInbound 0 0x01#8 7#16).wellFormed = true := by decide

/-- The opcode table gives no row any bits. -/
theorem test_no_word_spells_a_command : decodeTableWord 16 0 = none ∧ State.reset.withFetchWord 16 0 = State.reset := ⟨rfl, rfl⟩

/-! ### Values the spec writes out -/

/-- R190: both checksums of the nine characters 1 to 9. -/
theorem test_checksums_of_the_nine_digits :
    crc16 [0x31#8, 0x32#8, 0x33#8, 0x34#8, 0x35#8, 0x36#8, 0x37#8, 0x38#8, 0x39#8] = 0x29B1#16
      ∧ crc32Value (crc32Advance 0xFFFFFFFF#32 [0x31#8, 0x32#8, 0x33#8, 0x34#8, 0x35#8, 0x36#8, 0x37#8, 0x38#8, 0x39#8])
        = 0xCBF43926#32 := by
  decide +kernel

/-- R189: the first pattern word of an attempt, and a generator loaded from a word continues behind it. -/
theorem test_pattern_words :
    prbsWord prbsStart = 0xFFFFFFFE#32 ∧ prbsLoad (prbsWord prbsStart) = prbsNext prbsStart := by decide +kernel

/-- R178: what the window reads right after hard reset. -/
theorem test_window_after_reset :
    [0x000#12, 0x001#12, 0x010#12, 0x040#12, 0x04F#12, 0x060#12, 0x061#12, 0x100#12].map (fun a => windowRead a State.reset)
      = [0x0A1D#32, 0x0820#32, 0#32, 1#32, 3#32, 30#32, 2048#32, 0#32] := by decide +kernel

/-- R188: the envelope of a PORT_RESYNCED notice. -/
theorem test_envelope_of_a_notice :
    NoticeRec.bytes { notice := .portResynced, lost := true }
      = [0xC3#8, 0x3C#8, 0x98#8, 0x01#8, 0#8, 0#8, 0#8] ++ byte2 (crc16 [0x98#8, 0x01#8, 0#8, 0#8, 0#8]).toNat := by decide +kernel

/-! ### Witnesses: the machine as a whole -/

/-- A state in which a command waits, for the statements about steps. -/
def waiting : State := { printing with pending := [.clockSecond] }

theorem witness_invariants : DramCanonical waiting ∧ RunConfigured waiting ∧ SetupQuiet waiting ∧ NoticesBounded waiting.work
    ∧ PoolSound waiting.work ∧ StoreSound waiting.work ∧ PagesSound waiting.work
    ∧ step waiting = .next (after (step waiting)) := by
  refine ⟨by unfold DramCanonical; decide +kernel, fun _ => by decide +kernel, fun h => absurd h (by decide), fun p => ?_,
    by unfold PoolSound; decide +kernel, by unfold StoreSound; decide +kernel, ⟨by decide +kernel, fun p hp c hc => ?_⟩, rfl⟩
  · cases p with
    | title t => cases t <;> decide +kernel
    | desk => decide +kernel
  · have : p.candidate = none := by
      have hp : p = page .live (some (released 1)) none := List.mem_singleton.mp hp
      rw [hp]; rfl
    rw [this] at hc
    cases hc

/-- A part at work: a plate, a TARGET and a WITHDRAW in the queue of S0, a backlog item, two cut-offs armed, and an image open on each
parser. -/
def atWork : State :=
  let w := waiting.work
  let pages := [{ page .live (some (released 1)) none with sites := Vector.replicate 8 { held := 1, progress := 0#4 } }]
  let armedAt (i : Site) (n : Nat) : Deadline := { title := .a, code := 1, site := i, cutoff := 100, order := n }
  let opened (p : Title) (id : Nat) : Parser :=
    { Parser.reset with state := .opened, image := some { image := id, key := { key with title := p }, sep := .k, version := 2 } }
  { waiting with work := { w with
    entries := [plate .queued, target .queued, withdraw .queued], pages := pages
    backlog := [{ key := key, kind := .reseed, sites := 1#8, carried := 0#8 }]
    images := [image .sealed 2, { image .filling 0 with id := 1 }, { image .overrun 0 with id := 2 }]
    deadlines := [armedAt 0 0, armedAt 1 1], parsers := { a := opened .a 1, b := opened .b 2 } } }

theorem witness_records :
    PagesSound atWork.work ∧ PoolSound atWork.work ∧ ImagesSound atWork.work ∧ DeadlinesSorted atWork.work ∧ BacklogSound atWork.work
      ∧ HeldWithinReleased atWork.work ∧ step atWork = .next (after (step atWork)) := by
  refine ⟨⟨by decide +kernel, fun p hp c hc => ?_⟩, by unfold PoolSound; decide +kernel,
    ⟨by decide +kernel, by decide +kernel, fun id hid => ?_, fun t i hi => ?_, fun i j hi hj => ?_⟩,
    by unfold DeadlinesSorted; decide +kernel, by unfold BacklogSound; decide +kernel, by unfold HeldWithinReleased; decide +kernel, rfl⟩
  · obtain rfl : p = _ := List.mem_singleton.mp hp
    cases hc
  · by_cases h : id = 0
    · subst h; decide +kernel
    · refine absurd hid ?_
      simp [Work.imageNames, atWork, PageRec.imageIds, page, released, refs, ImageRefs.toList, plate, target, withdraw, Ne.symm h]
      rintro (_ | _ | _ | _) - <;> simp [ImageRefs.get, Ne.symm h]
  · cases t <;> cases hi
    · exact ⟨_, rfl, .inl rfl⟩
    · exact ⟨_, rfl, .inr rfl⟩
  · cases hi; cases hj; decide

theorem witness_setup : SetupQuiet State.reset ∧ State.reset.svc.phase = .setup ∧ step State.reset = .next State.reset := by
  refine ⟨fun _ => ⟨by unfold Work.tablesQuiet; decide +kernel, by unfold Work.lineQuiet; decide +kernel, fun t => ?_, rfl⟩, rfl, rfl⟩
  cases t <;> exact ⟨rfl, rfl, rfl⟩

theorem witness_frames :
    (Instr.isRestart (.handOver 0) = false ∧ lineOf (.handOver 0) ≠ some 1 ∧ (Instr.handOver 0).reachesTransfers = false
      ∧ recordsOf (.handOver 0) ≠ some 1 ∧ recordsOf (.colourClear 0#8 7#8 0#8) ≠ some 0)
    ∧ ((Instr.handOver 0).loadsSlots = false ∧ (Instr.handOver 0).movesClock = false ∧ (Instr.handOver 0).changesHolds = false
      ∧ (Instr.handOver 0).reachesParsers = false ∧ (Instr.handOver 0).scrubs = false)
    ∧ ((Instr.handOver 0).isService = false ∧ (Instr.handOver 0).isPortEvent = false ∧ messagePort (.handOver 0) = none)
    ∧ exec (.handOver 0) printing = .next (after (exec (.handOver 0) printing)) := by
  refine ⟨by decide, by decide, by decide, rfl⟩

theorem witness_band_written :
    (submitting 0 true).takesMessage (.title .a) (.band .a 0#8 [1#8]) = true
      ∧ ((submitting 0 true).work.takeBand .a 0#8 [1#8]).2 = some 0
      ∧ ((submitting 0 false).work.takeBand .a 0#8 [1#8]).2 = none ∧ State.reset.takesMessage (.title .a) (.band .a 0#8 [1#8]) = false := by
  decide +kernel

/-- A port whose store holds a complete EDITION_RETIRE of edition 2. -/
def holdingMessage : State :=
  running.setAsm (.title .a) { state := .synced, c3Held := false, store := envelope 2#8 0#8 [2#8], complete := true }

theorem witness_closed_ports :
    messagePort (.editionRetire .a 1#8) = some (.title .a) ∧ messagePort (.siteQuery 0#8 0#8) = some .desk
      ∧ ((running.setAsm .desk .stalled).asmOf .desk).state = .stalled
      ∧ ((running.modPort .a (fun x => { x with resyncIn := true })).ports.get .a).resyncIn = true
      ∧ (holdingMessage.asmOf (.title .a)).complete = true
      ∧ storedCommand (.title .a) (holdingMessage.asmOf (.title .a)).store ≠ some (.editionRetire .a 1#8)
      ∧ holdingMessage.takesMessage (.title .a) (.editionRetire .a 2#8) = true := by
  decide +kernel

/-! ### Witnesses: the Service Port -/

theorem witness_start_accepted :
    State.reset.svc.phase = .setup ∧ (∀ i : ConfigItem, i.inRange (cfg State.reset.config i) = true)
      ∧ cfg State.reset.config .tUp ≤ cfg State.reset.config .tDeg
      ∧ cfg State.reset.config .quotaA + cfg State.reset.config .quotaB ≤ 4096 * cfg State.reset.config .dramSize := by
  refine ⟨rfl, fun i => ?_, by decide +kernel, by decide +kernel⟩
  cases i with
  | margin j => revert j; decide +kernel
  | lineRate j => revert j; decide +kernel
  | _ => decide +kernel

/-- SETUP with both quotas just past the pool, and T_up past T_deg: charged to 0x041 and 0x04C (R182). -/
def misconfigured : State :=
  { State.reset with config := setCfg (setCfg (setCfg defaultConfig .quotaA 2048#32) .quotaB 2049#32) .tUp 65#32 }

theorem witness_start_refused :
    misconfigured.svc.phase = .setup ∧ 0x041 ∈ startFailures misconfigured.config
      ∧ (∀ b ∈ startFailures misconfigured.config, 0x041 ≤ b) ∧ running.svc.phase = .run := by
  decide +kernel

theorem test_start : (after (exec .start State.reset)).svc.phase = .run ∧ (after (exec .start misconfigured)).svc.refusedItem = 0x041
    ∧ (after (exec .start State.reset)).work.out.desk.queue.length = 8 := by decide +kernel

theorem witness_lines_of_the_window : siteOf 0#8 = some 0 ∧ siteOf 7#8 = some 7 ∧ 8 ≤ (8#8 : Byte).toNat ∧ running.svc.phase = .run
    ∧ State.reset.svc.phase = .setup := by decide

theorem test_line_reset_and_capture :
    ((after (exec (.lineReset 0#8) printing)).work.qual 0).level = .training
      ∧ ((after (exec (.capture 0#8) printing)).work.qual 0).snapshot.level = .up := by decide +kernel

theorem witness_config_writes :
    ConfigItem.addr .tUp = (0x04B#12).toNat ∧ ConfigItem.writable .tUp = true ∧ ConfigItem.inRange (64#32).toNat .tUp = true
      ∧ (64#32).toNat ≤ cfg running.config .tDeg ∧ cfg running.config .tDeg < (65#32).toNat ∧ ConfigItem.addr .tDeg = (0x04C#12).toNat
      ∧ cfg running.config .tUp ≤ (2#32).toNat ∧ (1#32).toNat < cfg running.config .tUp ∧ ConfigItem.writable .dramSize = false
      ∧ ConfigItem.inRange 0 .window = false ∧ ConfigItem.inRange 8 .window = true ∧ ConfigItem.ofAddr 0x050 = none := by
  decide +kernel

theorem witness_address_without_item : ∀ i : ConfigItem, i.addr ≠ (0x050#12).toNat := by
  intro i
  cases i with
  | margin j => revert j; decide
  | lineRate j => revert j; decide
  | _ => decide

theorem test_flag_reads :
    (after (exec .errorReportRead (on (Work.raiseError (fun e => { e with lostDesk := true })) running))).svc.readData = 0x80#32
      ∧ (after (exec .attentionRead (on (Work.raiseError id) running))).svc.readData = 1#32
      ∧ (after (exec (.attentionEnableWrite 6#32) running)).svc.enables = { error := false, lineDown := true, colourHold := true } := by
  decide +kernel

/-- R178: words written to the window and the commands they are. -/
theorem test_window_words :
    [0x01000000#32, 0x02000005#32, 0x03000107#32, 0x04000008#32, 0x00000000#32, 0x05000000#32].map (windowWrite 0x011#12)
        = [.start, .softRestart, .lineReset 7#8, .capture 8#8, .unknownCommand 0#8, .unknownCommand 5#8]
      ∧ windowWrite 0x022#12 7#32 = .attentionEnableWrite 7#32 ∧ windowWrite 0x040#12 7#32 = .configWrite 0x040#12 7#32
      ∧ (State.reset.windowWritten 0x011#12 0x01000000#32).pending = [.start]
      ∧ [0x020#12, 0x021#12, 0x022#12].map windowReadCommand = [some .errorReportRead, some .attentionRead, none] := by decide

/-! ### Witnesses: the ports -/

/-- Title Port A with words in its buffer. -/
def buffered (n lane : Nat) : State := running.modPort .a (fun x => { x with buffer := List.replicate n 0xC33C0000#32, lane := lane })

theorem witness_title_words :
    (buffered 2047 0).svc.phase = .run ∧ ((buffered 2047 0).ports.get .a).resyncIn = false
      ∧ ((buffered 2047 0).ports.get .a).buffer.length < 2048 ∧ 2048 ≤ ((buffered 2048 0).ports.get .a).buffer.length
      ∧ ((buffered 1 3).ports.get .a).buffer = 0xC33C0000#32 :: [] ∧ ((buffered 1 3).ports.get .a).asm.complete = false
      ∧ ((buffered 1 3).ports.get .a).lane ≤ 3 ∧ (running.ports.get .a).buffer = []
      ∧ (holdingMessage.ports.get .a).asm.complete = true := by
  decide +kernel

theorem test_two_bytes_find_the_sync :
    ((after (exec (.assemblerByte .a) (after (exec (.assemblerByte .a) (buffered 1 0))))).ports.get .a).asm = Assembler.begun := by
  decide +kernel

/-- A store of six header bytes of a type and a length. -/
def header (type : Byte) (len : Byte) : Assembler :=
  { state := .synced, c3Held := false, store := [0xC3#8, 0x3C#8, type, 0#8, 0#8, len], complete := false }

theorem witness_assembler :
    Assembler.stalled.state = .stalled ∧ Assembler.reset.state = .idle ∧ Assembler.between.state = .synced ∧ Assembler.between.store = []
      ∧ ({ Assembler.between with c3Held := true } : Assembler).c3Held = true ∧ (header 0x0A#8 0#8).store.length = 6
      ∧ acceptsType (.title .a) (byteAt (header 0x0A#8 0#8).store 2).toNat = false
      ∧ acceptsType (.title .a) (byteAt (header 0x09#8 0#8).store 2).toNat = true
      ∧ lengthListed (byteAt (header 0x09#8 0#8).store 2).toNat (headerLength ((header 0x09#8 0#8).store ++ [3#8])) = false
      ∧ lengthListed (byteAt (header 0x09#8 0#8).store 2).toNat (headerLength ((header 0x09#8 0#8).store ++ [2#8])) = true := by
  decide

/-- The store of an EDITION_RETIRE of edition 2 but for its last byte. -/
def unfinished : Assembler := { Assembler.between with store := (envelope 2#8 0#8 [2#8]).dropLast }

/-- R169: the last byte of a message completes it where its CRC-16 agrees, and stalls the port otherwise. -/
theorem test_message_ends :
    unfinished.store.length + 1 = 9 + headerLength unfinished.store ∧ 7 ≤ unfinished.store.length ∧ unfinished.complete = false
      ∧ unfinished.take (.title .a) ((envelope 2#8 0#8 [2#8]).getLastD 0#8)
        = ({ unfinished with store := envelope 2#8 0#8 [2#8], complete := true }, none)
      ∧ unfinished.take (.title .a) (~~~(envelope 2#8 0#8 [2#8]).getLastD 0#8) = (.stalled, some .badCrc)
      ∧ ({ unfinished with store := (envelope 2#8 0#8 [2#8]).take 7 } : Assembler).store.length + 1
        ≠ 9 + headerLength ((envelope 2#8 0#8 [2#8]).take 7) := by decide +kernel

theorem witness_envelope :
    acceptsType (.title .a) 0x01 = true ∧ lengthListed 0x01 1 = true ∧ lengthListed 0x01 49 = true ∧ acceptsType .desk 0x29 = true
      ∧ lengthListed 0x29 2 = true ∧ lengthListed 0x05 262145 = true ∧ lengthListed 0x07 7 = true ∧ lengthListed 0x07 151 = true
      ∧ Assembler.reset.store = [] ∧ Assembler.reset.c3Held = false := by decide

theorem test_edition_query_is_read_back :
    storedCommand .desk (envelope 0x09#8 5#8 [2#8, 15#8]) = some (.editionQuery .desk 5#8 2#8 15#8) := by decide +kernel

theorem witness_resync :
    running.svc.phase = .run ∧ (running.work.parser .a).state = .idle ∧ ((submitting 1 true).work.parser .a).state = .opened
      ∧ ((submitting 1 true).work.parser .a).image.isSome = true ∧ (discarding.work.parser .a).state = .discard
      ∧ (discarding.work.parser .a).result = some pending ∧ State.reset.svc.phase = .setup := by decide +kernel

theorem test_resync :
    (after (exec (.resync .a) (submitting 1 true))).work.out.a.queue.map NoticeRec.notice
        = [.submitResult (some key) 3 1 .resync 1 1, .portResynced]
      ∧ ((after (exec (.resyncRelease .a) (after (exec (.resync .a) running)))).ports.get .a).resyncIn = false := by decide +kernel

theorem witness_desk :
    (running.setAsm .desk { header 0x09#8 0#8 with complete := true }).desk.asm.complete = true
      ∧ (running.setAsm .desk .between).desk.asm.state = .synced ∧ running.desk.asm.state ≠ .synced
      ∧ running.desk.asm.complete = false := by decide +kernel

theorem test_desk_framing :
    (after (exec (.deskCharacter 0#8 true) (running.setAsm .desk .between))).work.out.desk.queue.map NoticeRec.notice
        = [.portError .framing]
      ∧ (after (exec .deskBreak running)).work.out.desk.queue.map NoticeRec.notice = [.portResynced] := by decide +kernel

/-- A notice queue of the desk with some records. -/
def noticed (n : Nat) : State :=
  on (Work.setOut .desk { Outbox.reset with queue := List.replicate n { notice := .portResynced, lost := false } }) running

theorem witness_queues :
    ((noticed 64).work.outOf .desk).queue.length = 64 ∧ ((noticed 63).work.outOf .desk).queue.length = 63
      ∧ ((noticed 1).work.outOf .desk).queue ≠ [] := by decide +kernel

theorem test_characters_and_words_leave :
    (after (exec .deskCharacterSent (noticed 1))).work.out.desk.lastOut = 0xC3#32
      ∧ (after (exec (.outboundWordSent .a) (on (Work.toTitle .a .portResynced) running))).work.out.a.lastOut = 0xC33C9800#32 := by
  decide +kernel

/-- A receiver within a frame of one body word, its header heard. -/
def withinFrame : Receiver := { inFrame := true, frame := [0x82050001#32], lost := [] }

theorem witness_receiver :
    Receiver.reset.inFrame = false ∧ Receiver.reset.lost = [] ∧ withinFrame.inFrame = true
      ∧ 61442 < ((0x0100F003#32 : Word).extractLsb' 0 16).toNat ∧ ¬61442 < ((0x0100F002#32 : Word).extractLsb' 0 16).toNat
      ∧ frameCrc 0x83010000#32 [] ≠ 0#32 ∧ frameCrc 0x83010000#32 [] ||| 0x10000#32 ≠ frameCrc 0x83010000#32 []
      ∧ inboundLengthOk 0x8B#8 0 = false ∧ inboundLengthOk 0x83#8 1 = false
      ∧ (printing.work.qual 0).inService = true ∧ (running.work.qual 0).level = .down
      ∧ ((line .training running).work.qual 0).level = .training := by decide +kernel

/-- R157, R158, R189: a BAND_ACK heard word by word; the same with a bit of its CRC word's upper half set; an over-long header; and
framing lost. -/
theorem test_receiver :
    let sound := [syncWord, 0x82050001#32, 0x00030000#32, frameCrc 0x82050001#32 [0x00030000#32]]
    (Receiver.reset.takeAll 0 (sound.map some)) = (.reset, [.bandAck 0 5#8 0#16])
      ∧ (Receiver.reset.takeAll 0 ((sound.dropLast ++ [frameCrc 0x82050001#32 [0x00030000#32] ||| 0x80000000#32]).map some)).2.map
          Instr.wellFormed = [true]
      ∧ (Receiver.reset.takeAll 0 [some syncWord, some 0x8200F003#32]) = (.reset, [.badFrame ⟨0, [0x8200F003#32]⟩])
      ∧ (Receiver.reset.takeAll 0 (List.replicate 32 none)) = (.reset, [.framingLoss ⟨0, List.replicate 32 none⟩])
      ∧ (Receiver.reset.takeAll 0 (List.replicate 31 none ++ [some idleWord])) = (.reset, [])
      ∧ (printing.lineWord 0 (some syncWord)).pending = [] ∧ ((printing.lineWord 0 (some syncWord)).work.qual 0).receiver.inFrame = true
      ∧ ((line .training running).lineWord 0 none).pending = [.trainWordPeriod 0 none] ∧ running.lineWord 0 (some syncWord) = running := by
  decide +kernel

/-! ### Witnesses: editions, pages and images -/

def decl (site : Byte) : SiteDecl := { site := site, pressStart := 1900#32, pageCount := 128#8 }

/-- The clock just past the cut-off of `decl`. -/
def clocked (n : Nat) (s : State) : State := on (fun w => { w with clock := { set := true, value := n } }) s

theorem witness_edition_declared :
    (clocked 101 running).takesMessage (.title .a) (.editionDeclare .a 15#8 [decl 0#8, decl 7#8]) = true
      ∧ declArgumentsOk 15#8 [decl 0#8, decl 7#8] = true ∧ (clocked 101 running).work.findEdition .a 15 = none
      ∧ (clocked 101 running).work.editions.length < 8 ∧ listNames [decl 0#8, decl 7#8] 1 = false := by decide +kernel

theorem test_edition_declared_late_and_waiting :
    ((after (exec (.editionDeclare .a 1#8 [decl 0#8]) (clocked 101 running))).work.editionSite .a 1 0).map EditionSite.state = some .late
      ∧ ((after (exec (.editionDeclare .a 1#8 [decl 0#8]) (clocked 100 running))).work.editionSite .a 1 0).map EditionSite.cutoff
        = some 100 := by decide +kernel

/-- The edition OPEN with its site in a state, at a cut-off and a delivered count, with the site's plate and a TARGET waiting for its slot. -/
def updating (st : SiteState) (cutoff delivered : Nat) : State :=
  let r := edition .opened st cutoff
  on (fun w => { w with
    editions := [{ r with sites := r.sites.map (fun x => x.map (fun y => { y with delivered := delivered })) }]
    entries := [{ (plate .gated).withGates { Gates.none with target := true } with generation := 1 }, target .queued]
    deadlines := if st = .waiting then [{ title := .a, code := 1, site := 0, cutoff := cutoff, order := 0 }] else [] }) (clocked 100 running)

/-- The site's state, its cut-off's arming and the two deadlines after the edition is declared anew with `decl`, whose cut-off is 100. -/
def updated (count : Byte) (s : State) : Option SiteState × Bool × List (Option Nat) :=
  let t := after (exec (.editionDeclare .a 1#8 [{ decl 0#8 with pageCount := count }]) s)
  ((t.work.editionSite .a 1 0).map EditionSite.state, t.work.armed .a 1 0, t.work.entries.map Entry.deadline)

/-- R71: the item of a site that stays WAITING has the new cut-off, and so has that of one that becomes WAITING again. -/
theorem test_deadline_moved :
    [updating .waiting 90 0, updating .late 90 0].map (fun s =>
        (after (exec (.editionDeclare .a 1#8 [decl 0#8]) s)).work.deadlines.map (fun z => (z.is .a 1 0, z.cutoff)))
      = [[(true, 100)], [(true, 100)]] := by decide +kernel

theorem witness_edition_updated :
    (updating .waiting 90 0).takesMessage (.title .a) (.editionDeclare .a 1#8 [decl 0#8, decl 1#8]) = true
      ∧ declArgumentsOk 1#8 [decl 0#8, decl 1#8] = true
      ∧ ((updating .waiting 90 0).work.findEdition .a 1).map EditionRec.state = some .opened
      ∧ ((updating .waiting 90 0).work.findEdition .a 1).map (fun r => (updating .waiting 90 0).work.omitsUsed r [decl 0#8, decl 1#8])
        = some false
      ∧ ((updating .waiting 90 0).work.findEdition .a 1).map (fun r => (tget r.sites 0).isSome && (tget r.sites 1).isNone) = some true
      ∧ ((on (fun w => { w with entries := [] }) (updating .waiting 90 0)).work.findEdition .a 1).map
          (fun r => (on (fun w => { w with entries := [] }) (updating .waiting 90 0)).work.omitsUsed r [decl 1#8]) = some false := by
  decide +kernel

/-- R68, R115: what an EDITION_DECLARE makes of a site it had, row by row, the clock at 100 and then past the cut-off. -/
theorem test_edition_updated :
    [updated 2#8 (updating .waiting 90 1), updated 1#8 (updating .waiting 90 1), updated 2#8 (clocked 101 (updating .waiting 101 1)),
      updated 2#8 (updating .late 90 1), updated 2#8 (updating .late 100 1), updated 2#8 (updating .ready 90 1),
      updated 1#8 (updating .ready 90 1), updated 2#8 (clocked 101 (updating .ready 90 1)), updated 2#8 (updating .running 90 1),
      updated 2#8 (updating .closed 90 1)]
    = [(some .waiting, true, [some 100, some 100]), (some .ready, false, [some 100, some 100]), (some .late, false, [some 100, some 100]),
      (some .waiting, true, [some 100, some 100]), (some .late, false, [some 100, none]), (some .waiting, true, [some 100, some 100]),
      (some .ready, false, [some 100, some 100]), (some .late, false, [some 100, some 100]), (some .running, false, [some 100, some 100]),
      (some .closed, false, [some 100, none])] := by decide +kernel

/-- An edition record with a state, the page's record, and some entries. -/
def edited (st : EditionState) (site : SiteState) (es : List Entry) : State :=
  on (fun w => { w with editions := [edition st site 100], pages := [page .live (some (released 1)) none], entries := es }) running

theorem witness_edition_refused :
    declArgumentsOk 0#8 [decl 0#8] = false ∧ declArgumentsOk 16#8 [decl 0#8] = false ∧ declArgumentsOk 1#8 [decl 8#8] = false
      ∧ declArgumentsOk 1#8 [decl 0#8, decl 0#8] = false ∧ declArgumentsOk 1#8 [] = true
      ∧ (edited .closed .closed []).work.findEdition .a 1 = some (edition .closed .closed 100)
      ∧ (tget (edition .opened .waiting 100).sites 0).isSome = true ∧ listNames [decl 1#8] 0 = false
      ∧ (edited .opened .waiting []).work.siteNamed .a 1 0 = true ∧ (edition .opened .closed 100).siteIs .closed 0 = true
      ∧ (edited .opened .waiting [plate .queued]).work.siteQueued .a 1 0 = true
      ∧ 8 ≤ (on (fun w => { w with editions := List.replicate 8 (edition .opened .waiting 100) }) running).work.editions.length
      ∧ (on (fun w => { w with editions := List.replicate 8 (edition .opened .waiting 100) }) running).work.findEdition .b 1 = none := by
  decide +kernel

theorem witness_edition_retired :
    editionOk 1 = true ∧ editionOk 15 = true ∧ (edited .closed .closed []).takesMessage (.title .a) (.editionRetire .a 1#8) = true
      ∧ (edited .closed .closed []).work.editionState .a 1 = some .closed
      ∧ (edited .closed .closed [plate .queued]).work.entries.any (Entry.namesEdition .a 1) = true
      ∧ (edited .closed .closed []).work.entries.any (Entry.namesEdition .a 1) = false
      ∧ (edited .retiring .closed []).work.editionState .a 1 = some .retiring
      ∧ (edited .opened .waiting []).work.editionState .a 1 = some .opened ∧ running.work.editionState .a 1 = none := by decide +kernel

theorem test_edition_retired :
    (after (exec (.editionRetire .a 1#8) (edited .closed .closed []))).work.out.a.queue.map NoticeRec.notice
        = [.retireResult .ok, .editionFreed 1]
      ∧ (after (exec (.editionFreed .a 1#8) (edited .retiring .closed []))).work.editions = [] := by decide +kernel

theorem witness_page_declared :
    (edited .opened .waiting []).takesMessage (.title .a) (.pageDeclare .a 1#8 128#8 1#8 1#8 31#8) = true ∧ pageOk 128 = true
      ∧ pageOk 1 = true ∧ colourOf 1#8 = some .process ∧ slotOf 31#8 = some 31
      ∧ (edited .opened .waiting []).work.findEdition .a 1 = some (edition .opened .waiting 100)
      ∧ SiteSet.less 1#8 (edition .opened .waiting 100).siteSet = 0#8
      ∧ (edited .opened .waiting []).work.findPage { key with page := 128 } = none
      ∧ (edited .opened .waiting []).work.pages.length < 1024
      ∧ (edited .opened .waiting []).work.findPage key = some (page .live (some (released 1)) none) ∧ colourOf 0#8 = some .mono := by
  decide +kernel

/-- The page with its candidate approved and COMPLETE, or not, and a membership of a kind. -/
def masked (approved : Bool) (items : List BacklogItem) : State :=
  on (fun w => { w with
    editions := [{ edition .opened .waiting 100 with
      sites := tput (tput (Vector.replicate 8 none) 0 (tget (edition .opened .waiting 100).sites 0)) 1
        (tget (edition .opened .waiting 100).sites 0) }]
    pages := [page .live (some (released 1)) (some { candidate 2 .complete with approved := approved })], backlog := items }) running

/-- The backlog after the page's mask has changed from S0 and S1 to S1. -/
def remasked (approved : Bool) (items : List BacklogItem) : List BacklogItem :=
  (after (exec (.pageDeclare .a 1#8 1#8 0#8 2#8 0#8) (masked approved items))).work.backlog

/-- R4, R11: a changed mask and the backlog. -/
theorem test_mask_changed :
    remasked true [{ key := key, kind := .release, sites := 3#8, carried := 4#8 }]
        = [{ key := key, kind := .release, sites := 7#8, carried := 4#8 }]
      ∧ remasked true [{ key := key, kind := .reseed, sites := 4#8, carried := 0#8 }]
        = [{ key := key, kind := .release, sites := 7#8, carried := 4#8 }]
      ∧ remasked true [] = [{ key := key, kind := .release, sites := 3#8, carried := 0#8 }] ∧ remasked false [] = []
      ∧ ((masked true []).work.findPage key).map PageRec.releasable = some true
      ∧ ((masked false []).work.findPage key).map PageRec.releasable = some false := by decide +kernel

theorem witness_page_refused :
    pageOk 0 = false ∧ pageOk 129 = false ∧ colourOf 2#8 = none ∧ slotOf 32#8 = none
      ∧ SiteSet.less 2#8 (edition .opened .waiting 100).siteSet ≠ 0#8
      ∧ (on (fun w => { w with pages := [page .killed none none] }) running).work.findPage key = some (page .killed none none)
      ∧ (page .live none none).state = .live ∧ (page .opened none (some (candidate 1 .collecting))).candidate.isSome = true := by
  decide +kernel

/-- The page table is full of other pages of the edition. -/
theorem witness_page_table_full :
    let s := on (fun w => { w with pages := List.replicate 1024 { page .opened none none with key := { key with page := 2 } } }) running
    1024 ≤ s.work.pages.length ∧ s.work.findPage key = none := by decide +kernel

theorem test_page_declared :
    (after (exec (.pageDeclare .a 1#8 2#8 0#8 1#8 0#8) (edited .opened .waiting []))).work.out.a.queue.map NoticeRec.notice
        = [.declareResult { key with page := 2 } .ok]
      ∧ (after (exec (.pageDeclare .a 1#8 2#8 0#8 1#8 0#8) (edited .opened .waiting []))).work.pages.length = 2 := by decide +kernel

theorem witness_begin_answers :
    let p := page .live (some (released 2)) (some (candidate 4 .collecting))
    p.candidate = some (candidate 4 .collecting) ∧ (candidate 4 .collecting).images.get .k = none
      ∧ (candidate 4 .complete).images.get .k ≠ none ∧ p.releasedVersion = 2
      ∧ (∀ c, p.candidate = some c → c.version < 5 ∧ p.releasedVersion < 3 ∧ 3 < c.version)
      ∧ SepSet.has ({ released 2 with resupply := 8#4 } : Released).resupply .k = true ∧ SepSet.has (released 2).resupply .k = false := by
  refine ⟨rfl, rfl, by decide, rfl, fun c hc => ?_, by decide, by decide⟩
  cases hc
  decide

theorem witness_candidate_above : (page .live (some (released 2)) (some (candidate 4 .collecting))).candidateAbove := by
  intro c hc
  cases hc
  decide

/-- The edition and the page without a candidate, for an IMAGE_BEGIN. -/
def declared (st : PageState) (c : Option Candidate) : State :=
  on (fun w => { w with editions := [edition .opened .waiting 100], pages := [page st none c] }) running

theorem witness_begin_accepted :
    (declared .opened none).takesMessage (.title .a) (.imageBegin .a begin) = true
      ∧ ((declared .opened none).work.parser .a).state = .idle ∧ beginArgumentsOk begin = true
      ∧ beginArgumentsOk { begin with bandCount := 1024#16, totalBytes := 251658240#32 } = true
      ∧ (declared .opened none).work.findPage key = some (page .opened none none)
      ∧ (declared .opened none).work.editionState .a 1 ≠ some .closed ∧ separationFor .mono 3#8 = some .k
      ∧ (declared .opened none).work.images.length < 2048 ∧ ((page .opened none none).beginAnswer .k 1).toOption = some .new
      ∧ ((page .opened none (some (candidate 1 .collecting))).beginAnswer .k 1).toOption = some .fill
      ∧ ((page .opened none (some (candidate 1 .complete))).beginAnswer .k 2).toOption = some .new
      ∧ ((page .live (some { released 1 with resupply := 8#4 }) none).beginAnswer .k 1).toOption = some .resupply := by decide +kernel

/-- R35: an IMAGE_BEGIN discards the image still open, INCOMPLETE, and is then taken. -/
theorem test_begin_over_an_open_image :
    let s := after (exec (.imageBegin .a begin) (submitting 1 true))
    (submitting 1 true).takesMessage (.title .a) (.imageBegin .a begin) = true
      ∧ ((submitting 1 true).work.parser .a).state = .opened ∧ ((submitting 1 true).work.parser .a).image.map OpenImage.image = some 0
      ∧ s.work.out.a.queue.map NoticeRec.notice = [.submitResult (some key) 3 1 .incomplete 1 1]
      ∧ (s.work.parser .a).state = .opened ∧ s.work.images.length = 1 := by decide +kernel

theorem witness_begin_refused :
    beginArgumentsOk { begin with bandCount := 0#16 } = false ∧ beginArgumentsOk { begin with bandCount := 1025#16 } = false
      ∧ beginArgumentsOk { begin with totalBytes := 0#32 } = false ∧ beginArgumentsOk { begin with totalBytes := 245761#32 } = false
      ∧ running.work.findPage key = none ∧ (page .killed none none).state = .killed
      ∧ (edited .closed .closed []).work.editionState .a 1 = some .closed ∧ separationFor .mono 0#8 = none
      ∧ separationFor .process 4#8 = none
      ∧ 2048 ≤ (on (fun w => { w with images := List.replicate 2048 (image .sealed 1) }) (declared .opened none)).work.images.length
      ∧ ((page .opened none none).beginAnswer .k 0).toOption = none := by decide +kernel

theorem test_begin :
    ((after (exec (.imageBegin .a begin) (declared .opened none))).work.parser .a).state = .opened
      ∧ ((after (exec (.imageBegin .a begin) running)).work.parser .a).result.map PendingResult.result = some .noPage := by decide +kernel

/-- The open image's tail extent with a number of bytes used. -/
def tailed (used : Nat) : State :=
  on (fun w => { w with
    images := [{ image .filling 0 with tail := some 0 }], extents := [{ extent with used := used }], freeExtents := 4095 })
    (submitting 0 true)

theorem witness_bands :
    (submitting 0 true).takesMessage (.title .a) (.band .a 0#8 [1#8]) = true ∧ ((submitting 0 true).work.parser .a).state = .opened
      ∧ (0#8 : Byte).toNat = ((submitting 0 true).work.parser .a).bandCounter % 16
      ∧ (1#8 : Byte).toNat ≠ ((submitting 0 true).work.parser .a).bandCounter % 16
      ∧ ((submitting 2 true).work.parser .a).bandCounter = ((submitting 2 true).work.parser .a).declaredBands
      ∧ ((submitting 0 false).work.parser .a).storing = false
      ∧ ((tailed 262139).work.findImage 0).map ImageRec.tail = some (some 0)
      ∧ ((tailed 262139).work.findExtent 0).map Extent.used = some 262139 ∧ 262139 + [1#8].length + 4 ≤ 262144
      ∧ 262144 < 262140 + [1#8].length + 4 ∧ (submitting 0 true).work.extents.length < (submitting 0 true).work.extentCount
      ∧ (submitting 0 true).work.used.get .a < (submitting 0 true).work.quota.get .a
      ∧ (on (fun w => { w with extentCount := 2048, used := { a := 1024, b := 1024 } }) (submitting 0 true)).work.claimGranted .a = false := by
  decide +kernel

theorem test_band_stored :
    let s := after (exec (.band .a 0#8 [7#8]) (submitting 0 true))
    readBytes s.dram 0 5 = [0#8, 0#8, 0#8, 1#8, 7#8] ∧ (s.work.parser .a).bandCounter = 1
      ∧ ((after (exec (.band .a 1#8 [7#8]) (submitting 0 true))).work.parser .a).result.map PendingResult.result
        = some .badBandSequence := by decide +kernel

/-- The open image with both bands counted and the totals reached. -/
def ended (a : Acceptance) (storing : Bool) : State :=
  on (Work.setParser .a { (submitting 2 storing).work.parser .a with byteCount := 3, acceptance := some a }) (submitting 2 storing)

theorem witness_image_end :
    (ended .new true).takesMessage (.title .a) (.imageEnd .a 3#32 0#32) = true ∧ ((ended .new true).work.parser .a).bandCounter = 2
      ∧ ((ended .new true).work.parser .a).byteCount = (3#32).toNat ∧ ~~~((ended .new true).work.parser .a).crc = 0#32
      ∧ ~~~((ended .new true).work.parser .a).crc ≠ 1#32 ∧ ((ended .new false).work.parser .a).storing = false
      ∧ ((submitting 1 true).work.parser .a).bandCounter ≠ ((submitting 1 true).work.parser .a).declaredBands
      ∧ ((ended .new true).work.parser .a).byteCount ≠ (4#32).toNat
      ∧ ((ended .new true).work.findPage key).bind PageRec.candidate = some (candidate 1 .collecting)
      ∧ (candidate 2 .collecting).version ≠ 1 ∧ ((ended .resupply true).work.parser .a).acceptance = some .resupply
      ∧ SepSet.has ({ released 1 with resupply := 8#4 } : Released).resupply .k = true := by decide +kernel

theorem test_image_end :
    ((after (exec (.imageEnd .a 3#32 0#32) (ended .new true))).work.findPage key).bind PageRec.candidate = some (candidate 1 .complete)
      ∧ (after (exec (.imageEnd .a 3#32 1#32) (ended .new true))).work.out.a.queue.map NoticeRec.notice
        = [.submitResult (some key) 3 1 .checkFailed 2 3] := by decide +kernel

/-- A LIVE page whose image 0 is DAMAGED, with a plate that waits for it and one that aborts for the damage, and the new image whole on
the parser. -/
def resupplying : State :=
  on (fun w => (({ w with
    pages := [page .live (some { released 1 with resupply := 8#4 }) none]
    images := [image .damaged 3, { image .filling 0 with id := 1 }]
    entries := [(plate .gated).withGates { Gates.none with resupply := true },
      { plate .aborting with number := 1, cause := some .damaged, acked := 1 }] } : Work).setParser .a
        { (ended .resupply true).work.parser .a with image := some { image := 1, key := key, sep := .k, version := 1 } })) (ended .resupply true)

theorem witness_resupply :
    resupplying.takesMessage (.title .a) (.imageEnd .a 3#32 0#32) = true ∧ (resupplying.work.parser .a).state = .opened
      ∧ (resupplying.work.parser .a).acceptance = some .resupply ∧ (resupplying.work.parser .a).bandCounter = 2
      ∧ (resupplying.work.parser .a).byteCount = (3#32).toNat ∧ ~~~(resupplying.work.parser .a).crc = 0#32
      ∧ (resupplying.work.parser .a).storing = true ∧ PoolSound resupplying.work
      ∧ (resupplying.work.findPage key).map PageRec.state = some .live ∧ (released 1).images.get .k = some 0
      ∧ (resupplying.work.findImage 1).map ImageRec.state = some .filling := by
  unfold PoolSound
  decide +kernel

theorem test_resupply :
    let t := after (exec (.imageEnd .a 3#32 0#32) resupplying)
    t.work.entries.map (fun e => (e.state, e.image, e.acked)) = [(.queued, some 1, 0), (.aborting, some 1, 0)]
      ∧ t.work.images.map (fun r => (r.id, r.state, r.count)) = [(1, .sealed, 3)]
      ∧ (t.work.findPage key).map PageRec.released = some (some { released 1 with images := { refs with k := some 1 } }) := by
  decide +kernel

theorem witness_outside_an_image :
    discarding.takesMessage (.title .a) (.band .a 0#8 [1#8]) = true ∧ running.takesMessage (.title .a) (.band .a 0#8 []) = true
      ∧ discarding.takesMessage (.title .a) (.imageEnd .a 0#32 0#32) = true
      ∧ discarding.takesMessage (.title .a) (.imageBegin .a begin) = true ∧ (discarding.work.parser .a).state = .discard
      ∧ (discarding.work.parser .a).result = some pending := by decide +kernel

/-! ### Witnesses: targets, queries and desk commands -/

/-- Slot 0 at a generation, a number of dispatch records in use. -/
def slotted (g n : Nat) : State :=
  on (fun w => { w with slots := tput w.slots 0 { TargetSlot.reset with generation := g }
                        entries := List.replicate n { target .queued with slot := some 1 } }) running

theorem witness_target_load :
    (slotted 65534 1022).takesMessage (.title .a) (.targetLoad .a load) = true ∧ slotOf 0#8 = some 0 ∧ slotOf 31#8 = some 31
      ∧ 32 ≤ (32#8 : Byte).toNat ∧ loadPatches load = some [{ sep := .k, tint := 100, aim := 4000, tolerance := 500 }]
      ∧ loadPatches { load with patchCount := 2#8 } = none ∧ loadPatches { load with patchCount := 0#8, records := [] } = none
      ∧ ((slotted 65535 0).work.slot 0).generation = 65535 ∧ ((slotted 65534 0).work.slot 0).generation ≠ 65535
      ∧ SiteSet.count 3#8 = 2 := by decide +kernel

theorem witness_target_load_room :
    1024 - (slotted 0 1022).work.entries.length = 2 ∧ 1024 - (slotted 0 1023).work.entries.length = 1 := by decide +kernel

theorem test_target_load :
    let s := after (exec (.targetLoad .a load) (slotted 65534 0))
    s.work.out.a.queue.map NoticeRec.notice = [.targetResult 0 65535 .ok] ∧ s.work.entries.map Entry.site = [0, 1] := by decide +kernel

theorem witness_queries :
    printing.takesMessage (.title .a) (.pageQuery (.title .a) 9#8 1#8 1#8 1#8) = true ∧ keyOf 1#8 1#8 1#8 = some key
      ∧ keyOf 3#8 1#8 1#8 = none ∧ keyOf 1#8 16#8 1#8 = none ∧ keyOf 1#8 1#8 129#8 = none
      ∧ (keyOf 2#8 1#8 1#8).map PageKey.title = some .b ∧ running.work.findPage key = none
      ∧ printing.takesMessage .desk (.editionQuery .desk 9#8 1#8 1#8) = true ∧ titleOf 1#8 = some .a ∧ titleOf 0#8 = none
      ∧ printing.work.findEdition .a 1 = some (edition .opened .waiting 100)
      ∧ printing.takesMessage .desk (.siteQuery 9#8 7#8) = true ∧ siteOf 8#8 = none
      ∧ printing.takesMessage .desk (.colourQuery 9#8 7#8 31#8) = true ∧ slotOf 32#8 = none := by decide +kernel

theorem test_queries :
    (after (exec (.pageQuery .desk 9#8 1#8 1#8 2#8) printing)).work.out.desk.queue.map NoticeRec.notice = [.reply 8#8 9#8 .noPage []]
      ∧ (after (exec (.siteQuery 9#8 8#8) printing)).work.out.desk.queue.map NoticeRec.notice = [.reply 0x28#8 9#8 .badArgument []]
      ∧ (after (exec (.editionQuery (.title .b) 9#8 1#8 1#8) printing)).work.out.b.queue.map NoticeRec.notice
        = [.queryReply 9#8 9#8 .badArgument []]
      ∧ (after (exec (.colourQuery 9#8 0#8 32#8) printing)).work.out.desk.queue.map NoticeRec.notice
        = [.reply 0x29#8 9#8 .badSlot []] := by decide +kernel

/-- A page with version 2 released and a candidate of version 4. -/
def approvable (st : CandidateState) : State :=
  on (fun w => { w with pages := [page .live (some (released 2)) (some (candidate 4 st))] }) printing

theorem witness_approve :
    (approvable .complete).takesMessage .desk (.approve 1#8 1#8 1#8 1#8 4#8) = true
      ∧ (approvable .complete).work.findPage key = some (page .live (some (released 2)) (some (candidate 4 .complete)))
      ∧ (approvable .complete).work.editionState .a 1 ≠ some .closed ∧ (page .live (some (released 2)) none).releasedVersion = 2
      ∧ (candidate 4 .complete).approved = false ∧ (approvable .complete).work.findItem key = none
      ∧ SiteSet.less (3#8 ||| (page .live (some (released 2)) none).oldMask) ((approvable .complete).work.closedSites .a 1) ≠ 0#8 := by
  decide +kernel

theorem test_approve :
    (after (exec (.approve 1#8 1#8 1#8 1#8 4#8) (approvable .complete))).work.backlog
        = [{ key := key, kind := .release, sites := 3#8, carried := 0#8 }]
      ∧ (after (exec (.approve 1#8 1#8 1#8 1#8 3#8) (approvable .complete))).work.out.desk.queue.map NoticeRec.notice
        = [.reply 0x20#8 1#8 .staleVersion []] := by decide +kernel

theorem witness_kill :
    (carrying (plate .active) .sending).takesMessage .desk (.kill 1#8 1#8 1#8 1#8) = true
      ∧ (carrying (plate .active) .sending).work.findPage key = some (page .live (some (released 1)) none)
      ∧ (carrying (plate .active) .sending).work.editionState .a 1 ≠ some .closed
      ∧ PoolSound (carrying (plate .active) .sending).work
      ∧ ((submitting 1 true).work.parser .a).image.map OpenImage.key = some key := by
  unfold PoolSound
  decide +kernel

theorem test_kill :
    let s := after (exec (.kill 1#8 1#8 1#8 1#8) (carrying (plate .active) .sending))
    s.work.entries.map Entry.state = [.aborting] ∧ (s.work.engine 0).tx = [.plateAbort 1 key .k 1]
      ∧ ((after (exec (.kill 1#8 1#8 1#8 1#8) (submitting 1 true))).work.parser .a).result.map PendingResult.result
        = some .pageKilled := by decide +kernel

theorem witness_holds :
    (carrying (plate .queued) .idle).takesMessage .desk (.hold 1#8 1#8 0#8) = true
      ∧ (carrying (plate .queued) .idle).takesMessage .desk (.unhold 1#8 1#8 15#8) = true ∧ titleOf 1#8 = some .a
      ∧ (carrying (plate .queued) .idle).work.titleHold.get .a = false ∧ 15 < (16#8 : Byte).toNat
      ∧ (carrying (plate .queued) .idle).work.findEdition .a 1 = some (edition .opened .waiting 100)
      ∧ running.work.findEdition .a 15 = none ∧ (edition .closed .closed 100).state ≠ .opened := by decide +kernel

theorem test_holds :
    (after (exec (.hold 1#8 1#8 1#8) (carrying (plate .queued) .idle))).work.entries.map Entry.state = [.gated]
      ∧ (after (exec (.unhold 1#8 1#8 1#8) (after (exec (.hold 1#8 1#8 1#8) (carrying (plate .queued) .idle))))).work.entries.map
        Entry.state = [.queued] := by decide +kernel

theorem witness_close :
    printing.takesMessage .desk (.close 1#8 1#8 1#8 0xFF#8) = true ∧ closeTargets (edition .opened .waiting 100) 0xFF#8 = some 1#8
      ∧ closeTargets (edition .opened .waiting 100) 7#8 = some 128#8
      ∧ SiteSet.less 1#8 (edition .opened .waiting 100).siteSet = 0#8 ∧ SiteSet.less 128#8 (edition .opened .waiting 100).siteSet ≠ 0#8
      ∧ SiteSet.less 1#8 (SiteSet.ofPred ((edition .opened .waiting 100).siteIs .closed)) ≠ 0#8
      ∧ SiteSet.less 1#8 (SiteSet.ofPred ((edition .opened .closed 100).siteIs .closed)) = 0#8
      ∧ printing.work.findEdition .a 1 = some (edition .opened .waiting 100) ∧ printing.work.findEdition .b 1 = none
      ∧ 8 ≤ (8#8 : Byte).toNat := by decide +kernel

theorem test_close :
    (after (exec (.close 1#8 1#8 1#8 0xFF#8) printing)).work.editionState .a 1 = some .closed
      ∧ (after (exec (.close 1#8 1#8 1#8 1#8) printing)).work.out.desk.queue.map NoticeRec.notice = [.reply 0x24#8 1#8 .badMask []] := by
  decide +kernel

/-- R26: CLOSE aborts what is in transfer at the site and takes the site out of the backlog. -/
theorem test_close_in_transfer :
    let s := on (fun w => { w with backlog := [{ key := key, kind := .release, sites := 3#8, carried := 1#8 }] })
      (carrying (plate .active) .sending)
    let t := after (exec (.close 1#8 1#8 1#8 0#8) s)
    PoolSound s.work ∧ BacklogSound s.work ∧ t.work.entries.map (fun e => (e.state, e.cause)) = [(.aborting, some .closed)]
      ∧ t.work.backlog = [{ key := key, kind := .release, sites := 2#8, carried := 0#8 }] := by
  unfold PoolSound BacklogSound
  decide +kernel

/-- A cut-off armed at 100, and the clock. -/
def armed (n : Nat) : State :=
  on (fun w => { w with deadlines := [{ title := .a, code := 1, site := 0, cutoff := 100, order := 0 }] }) (clocked n printing)

theorem witness_clock :
    (armed 100).takesMessage .desk (.setClock 1#8 0#8 101#32) = true ∧ (armed 100).takesMessage .desk (.setClock 1#8 1#8 1#32) = true
      ∧ ((armed 100).work.clock.value : Int) + (0xFFFFFF9C#32).toInt = 0 ∧ ((armed 100).work.clock.value : Int) + (0xFFFFFF9B#32).toInt < 0
      ∧ 4294967295 < ((armed 4294967295).work.clock.value : Int) + (1#32).toInt ∧ running.work.clock.set = false
      ∧ 2 ≤ (2#8 : Byte).toNat ∧ (armed 4294967294).work.clock.value < 4294967295
      ∧ (armed 101).work.deadlines = [{ title := .a, code := 1, site := 0, cutoff := 100, order := 0 }]
      ∧ ((armed 101).work.editionSite .a 1 0).isSome = true ∧ running.work.deadlines = [] := by decide +kernel

theorem test_clock :
    ((after (exec .clockSecond (armed 100))).work.editionSite .a 1 0).map EditionSite.state = some .late
      ∧ ((after (exec (.setClock 1#8 1#8 1#32) (armed 99))).work.editionSite .a 1 0).map EditionSite.state = some .waiting
      ∧ ((after (exec .cutoffExpiry (armed 101))).work.editionSite .a 1 0).map EditionSite.lateMark = some true := by decide +kernel

theorem witness_training_requests :
    (line .down running).takesMessage .desk (.lineRetry 1#8 0#8) = true ∧ siteOf 0#8 = some 0
      ∧ ((line .down running).work.qual 0).level = .down ∧ ((line .degraded running).work.qual 0).level = .degraded
      ∧ ((line .degraded running).work.engine 0).state = .idle
      ∧ ((line .degraded (carrying (plate .active) .sending)).work.engine 0).state ≠ .idle
      ∧ ((qualifier (fun q => { q with retrainPending := true }) (line .degraded running)).work.qual 0).retrainPending = true
      ∧ ((qualifier (fun q => { q with tRetry := some 60 }) running).work.qual 0).tRetry.isSome = true := by decide +kernel

theorem test_training_requests :
    ((after (exec (.lineRetry 1#8 0#8) running)).work.qual 0).level = .training
      ∧ ((after (exec (.pendingRetrain 0)
          (qualifier (fun q => { q with retrainPending := true }) (line .degraded running)))).work.qual 0).level = .training
      ∧ ((after (exec (.tRetryExpiry 0) (qualifier (fun q => { q with tRetry := some 60 }) running))).work.qual 0).attempt = 1 := by
  decide +kernel

/-- Slot 0 of S0 on a colour hold, with a plate that waits for it. -/
def onHold : State :=
  on (Work.setCheck 0 0 { CheckRec.reset with hold := true, holdGeneration := 1 })
    (carrying ((plate .queued).withGates { Gates.none with colour := true }) .idle)

theorem witness_colour_clear :
    onHold.takesMessage .desk (.colourClear 1#8 0#8 0#8) = true ∧ (onHold.work.check 0 0).hold = true
      ∧ (onHold.work.check 7 31).hold = false ∧ siteOf 7#8 = some 7 ∧ slotOf 31#8 = some 31 := by decide +kernel

theorem test_colour_clear :
    (after (exec (.colourClear 1#8 0#8 0#8) onHold)).work.entries.map Entry.state = [.queued]
      ∧ (after (exec (.colourClear 1#8 0#8 0#8) onHold)).work.out.desk.queue.map NoticeRec.notice
        = [.colourCleared 0 0 .desk, .reply 0x27#8 1#8 .ok []] := by decide +kernel

/-! ### Witnesses: admission and transfers -/

def item (k : BacklogKind) : BacklogItem := { key := key, kind := k, sites := 1#8, carried := 0#8 }

/-- The page with a candidate and a backlog item, a number of dispatch records in use. -/
def backlogged (k : BacklogKind) (n : Nat) : State :=
  on (fun w => { w with
    pages := [{ page .live (some (released 1)) (some (candidate 2 .complete)) with
      sites := Vector.replicate 8 { held := 1, progress := 8#4 } }]
    backlog := [item k], entries := List.replicate n { target .queued with site := 7 } }) printing

theorem witness_admission :
    (backlogged .release 0).work.wants = [] ∧ (backlogged .release 0).work.backlog = [item .release]
      ∧ (backlogged .release 0).work.need (item .release) = 4 ∧ (backlogged .reseed 0).work.need (item .reseed) = 2
      ∧ (backlogged .withdraw 0).work.need (item .withdraw) = 1
      ∧ ((backlogged .release 0).work.findPage key).bind PageRec.candidate = some (candidate 2 .complete)
      ∧ PoolSound (backlogged .release 0).work
      ∧ SiteSet.has ((backlogged .release 0).work.openSites key 3#8) 1 = true ∧ (candidate 2 .complete).images.get .k = some 0
      ∧ SiteSet.has (item .reseed).sites 0 = true ∧ running.work.backlog = []
      ∧ ((backlogged .withdraw 0).work.findPage key).map (fun q => (q.site 0).held) = some 1 := by
  unfold PoolSound
  decide +kernel

/-- The records of a RELEASE head that waits are sound, as those of the RESEED head of `atWork` are. -/
theorem witness_admission_records :
    PagesSound (backlogged .release 0).work ∧ ImagesSound (backlogged .release 0).work ∧ atWork.work.wants = []
      ∧ atWork.work.backlog = [item .reseed] ∧ atWork.work.need (item .reseed) ≤ atWork.work.freeRecords
      ∧ (atWork.work.findPage key).bind PageRec.released = some (released 1) ∧ (released 1).images.get .k = some 0
      ∧ atWork.work.entries.map Entry.state = [.queued, .queued, .queued] := by
  refine ⟨⟨by decide +kernel, fun p hp c hc => ?_⟩, ⟨by decide +kernel, by decide +kernel, fun id hid => ?_, fun t i hi => ?_,
    fun i j hi => ?_⟩, rfl, rfl, by decide +kernel, rfl, rfl, rfl⟩
  · obtain rfl : p = _ := List.mem_singleton.mp hp
    cases hc
    decide
  · by_cases h : id = 0
    · subst h; decide +kernel
    · refine absurd hid ?_
      simp [Work.imageNames, backlogged, PageRec.imageIds, page, released, candidate, refs, ImageRefs.toList, on, List.count_eq_zero]
      rintro (_ | _ | _ | _) - <;> simp [ImageRefs.get, Ne.symm h]
  · cases t <;> cases hi
  · cases hi

theorem witness_admission_blocked :
    (backlogged .release 1021).work.freeRecords < (backlogged .release 1021).work.need (item .release)
      ∧ (backlogged .release 1020).work.need (item .release) ≤ (backlogged .release 1020).work.freeRecords := by decide +kernel

theorem test_admission :
    (after (exec .admission (backlogged .release 0))).work.entries.map (fun e => (e.kind, e.site, e.version)) = [(.plate, 0, 2), (.plate, 1, 2)]
      ∧ (after (exec .admission (backlogged .reseed 0))).work.entries.map (fun e => (e.kind, e.site, e.version)) = [(.plate, 0, 1)]
      ∧ (after (exec .admission (backlogged .withdraw 0))).work.entries.map (fun e => (e.kind, e.site, e.version)) = [(.withdraw, 0, 1)] := by
  decide +kernel

/-- The page counted at S0, whose edition-site is READY, released for S0 and S1 but declared for S1 alone, slot 0 at generation 1, a plate
of version 1 in transfer and a WITHDRAW waiting at S1. -/
def superseded : State :=
  on (fun w => { w with
    editions := [edition .opened .ready 100]
    pages := [{ page .live (some { released 1 with mask := 3#8 }) (some (candidate 2 .complete)) with
      declMask := 2#8, sites := Vector.replicate 8 { held := 1, progress := 8#4 } }]
    slots := tput w.slots 0 { TargetSlot.reset with generation := 1 }
    backlog := [{ key := key, kind := .release, sites := 3#8, carried := 0#8 }]
    entries := [plate .active, { withdraw .queued with site := 1 }] }) (carrying (plate .active) .sending)

theorem witness_superseded :
    superseded.work.wants = [] ∧ superseded.work.need { key := key, kind := .release, sites := 3#8, carried := 0#8 } ≤ superseded.work.freeRecords
      ∧ PoolSound superseded.work ∧ (superseded.work.findPage key).map (fun q => q.countedAt 0) = some true
      ∧ (superseded.work.outOf (.title .a)).queue.length ≤ 47 ∧ superseded.work.editionState .a 1 ≠ some .retiring
      ∧ SiteSet.has (SiteSet.less (superseded.work.openSites key 3#8) (superseded.work.openSites key 2#8)) 0 = true
      ∧ SiteSet.has (superseded.work.openSites key 2#8) 1 = true ∧ superseded.work.holding 1 0 < (superseded.work.slot 0).generation
      ∧ (superseded.work.editionSite .a 1 0).map EditionSite.state = some .ready
      ∧ superseded.work.hasTarget 1 0 = false ∧ superseded.work.entries.filter (fun e => e.withdrawOfPage key && e.site == 0) = [] := by
  unfold PoolSound
  decide +kernel

/-- R14, R24, R74, R106 to R109. -/
theorem test_superseded :
    let t := after (exec .admission superseded)
    t.work.entries.map (fun e => (e.kind, e.site, e.state, e.cause))
        = [(.plate, 0, .aborting, some .superseded), (.plate, 1, .gated, none), (.target, 1, .queued, none), (.withdraw, 0, .queued, none)]
      ∧ (t.work.editionSite .a 1 0).map (fun y => (y.state, y.delivered)) = some (.waiting, 0) ∧ t.work.armed .a 1 0 = true
      ∧ t.work.out.a.queue.map NoticeRec.notice = [.readyLost 1 0, .released key 2 2#8] := by decide +kernel

/-- A RESEED of the page for S0 and S1, bound to generation 1 of slot 0, which S1 holds, its image DAMAGED; at S0 a plate in transfer, one
CONFIRMING and one waiting, and a WITHDRAW that waits. -/
def reseeding : State :=
  on (fun w => { w with
    pages := [page .live (some { released 1 with generation := 1, resupply := 8#4 }) none]
    images := [image .damaged 4], holdings := tput w.holdings 1 (tput (tget w.holdings 1) 0 1)
    slots := tput w.slots 0 { TargetSlot.reset with generation := 2 }
    backlog := [{ item .reseed with sites := 3#8 }]
    entries := [plate .active, { plate .confirming with number := 5 }, { plate .queued with number := 6 }, withdraw .queued] })
      (carrying (plate .active) .sending)

theorem witness_reseed :
    PoolSound reseeding.work ∧ reseeding.work.wants = []
      ∧ reseeding.work.need { item .reseed with sites := 3#8 } ≤ reseeding.work.freeRecords
      ∧ reseeding.work.holding 0 0 < 1 ∧ ¬reseeding.work.holding 1 0 < 1 ∧ reseeding.work.hasTarget 0 0 = false := by
  unfold PoolSound
  decide +kernel

/-- R108: number, kind, state and the TARGET and RESUPPLY gates of each entry, at S0 and S1. -/
theorem test_reseed :
    (after (exec .admission reseeding)).work.entries.map (fun e => (e.number, e.kind, e.site, e.state, e.gates.target, e.gates.resupply))
      = [(0, .plate, 0, .aborting, false, false), (5, .plate, 0, .confirming, false, false), (2, .withdraw, 0, .queued, false, false),
        (1, .plate, 0, .gated, true, true), (3, .target, 0, .queued, false, false), (4, .plate, 1, .gated, false, true)] := by decide +kernel

/-- A plate of S0 that waits for slot 0, and the want marked. -/
def wanting (n : Nat) : State :=
  on (fun w => { w with
    entries := { (plate .queued).withGates { Gates.none with target := true } with generation := 1 }
      :: List.replicate n { target .queued with site := 7 }
    wants := [(0, 0)] }) printing

theorem witness_want :
    (wanting 0).work.wants = [(0, 0)] ∧ (wanting 0).work.wantExists 0 0 = true ∧ (wanting 0).work.entries.length < 1024
      ∧ (on (fun w => { w with wants := [(0, 0)] }) printing).work.wantExists 0 0 = false := by decide +kernel

theorem witness_want_without_room : 1024 ≤ (wanting 1023).work.entries.length ∧ (wanting 1023).work.wantExists 0 0 = true := by
  decide +kernel

/-- Wants marked at S1, where none exists, and at S0. -/
def wantingAtTwo (n : Nat) : State := on (fun w => { w with wants := [(1, 0), (0, 0)] }) (wanting n)

theorem test_want :
    (wantingAtTwo 0).work.wantExists 1 0 = false
      ∧ [wanting 0, wantingAtTwo 0].map (fun s => (after (exec .targetWantServed s)).work.entries.map Entry.kind)
        = [[.plate, .target], [.plate, .target]]
      ∧ (after (exec .targetWantServed (wantingAtTwo 1023))).work.wants = [(0, 0)] := by decide +kernel

/-- A plate of title A and one of title B, whose deadline is `late` later, title A started last. -/
def contended (late : Nat) : State :=
  on (fun w => { w with
    entries := [plate .queued, { plate .queued with number := 3, key := some { key with title := .b }, deadline := some (100 + late) }]
    arbiters := tput w.arbiters 0 (some .a) }) printing

theorem witness_hand_over :
    ((contended 120).work.qual 0).inService = true ∧ ((contended 120).work.engine 0).state = .idle
      ∧ ((contended 120).work.qual 0).level = .up
      ∧ (((contended 120).work.queue 0).filter (fun e => e.state == .queued)).map Entry.number = [0, 3]
      ∧ (printing.work.queue 0).filter (fun e => e.state == .queued) = [] ∧ (running.work.qual 0).inService = false
      ∧ cfg (contended 120).config .tieWindow = 120 ∧ tget (contended 120).work.arbiters 0 = some .a := by decide +kernel

theorem test_hand_over :
    ((after (exec (.handOver 0) (contended 120))).work.engine 0).current = some 3
      ∧ ((after (exec (.handOver 0) (contended 121))).work.engine 0).current = some 0 := by decide +kernel

/-- R114: two WITHDRAW entries by creation, whatever their deadlines, ahead of a TARGET and a PLATE of one deadline, and none last. -/
theorem test_queue_order :
    let s := on (fun w => { w with entries :=
      [{ target .queued with number := 5 }, plate .queued, { target .queued with deadline := some 100 },
       { withdraw .queued with number := 3, seq := 9, deadline := some 1 }, withdraw .queued] }) printing
    (s.work.queue 0).map Entry.number = [2, 3, 1, 0, 5] := by decide +kernel

/-- R122: no hand-over on a DEGRADED line that owes a retrain. -/
theorem witness_retrain_owed :
    let s := qualifier (fun q => { q with retrainPending := true }) (line .degraded (contended 120))
    (s.work.qual 0).level = .degraded ∧ (s.work.qual 0).retrainPending = true ∧ (s.work.engine 0).state = .idle
      ∧ (s.work.qual 0).inService = true ∧ after (exec (.handOver 0) s) = s := by decide +kernel

/-- A transfer with frames waiting. -/
def sendingFrames (e : Entry) (st : TransferState) (fs : List OutFrame) : State :=
  machine (fun g => { g with tx := fs, nextBand := 1 }) (carrying e st)

theorem witness_frame_left :
    let opened : OutFrame := .plateOpen 1 key .k 1 0 0 2 3 false 0
    ((sendingFrames (plate .active) .opening [opened]).work.engine 0).tx = opened :: []
      ∧ (sendingFrames (plate .active) .opening [opened]).work.current 0 = some (plate .active)
      ∧ ((sendingFrames (target .active) .sending [.targetSet 1 0 1 [] []]).work.current 0).map Entry.state = some .active
      ∧ ((sendingFrames (target .aborting) .sending [.targetSet 1 0 1 [] []]).work.current 0).map Entry.state = some .aborting
      ∧ ((sendingFrames (plate .active) .sending [.band 1 0 []]).work.engine 0).readOutstanding = none
      ∧ (sendingFrames (plate .active) .sending [.band 1 0 []]).work.imageBands (plate .active) = 2
      ∧ 1 - (plate .active).acked < (sendingFrames (plate .active) .sending []).work.window running.config 0
      ∧ (printing.work.engine 0).tx = [] := by decide +kernel

theorem test_frame_left :
    ((after (exec (.frameLeftLine 0) (sendingFrames (withdraw .active) .sending [.pageWithdraw 1 key 1]))).work.engine 0).state
        = .confirming
      ∧ ((after (exec (.frameLeftLine 0) (sendingFrames (plate .active) .sending [.band 1 0 []]))).work.engine 0).readOutstanding
        = some 1 := by decide +kernel

/-- The last band has left; and a TARGET_SET sent again in CONFIRMING. -/
theorem witness_frames_last :
    let last := machine (fun g => { g with nextBand := 2 }) (sendingFrames (plate .active) .sending [.band 1 1 []])
    let again := sendingFrames (target .confirming) .confirming [.targetSet 1 0 1 [] []]
    (last.work.engine 0).tx = [.band 1 1 []] ∧ (last.work.engine 0).nextBand = last.work.imageBands (plate .active)
      ∧ (last.work.engine 0).state = .sending ∧ (last.work.engine 0).readOutstanding = none
      ∧ ((after (exec (.frameLeftLine 0) last)).work.engine 0).state = .draining
      ∧ (again.work.engine 0).state = .confirming ∧ (again.work.current 0).map Entry.kind = some .target
      ∧ ((after (exec (.frameLeftLine 0) again)).work.engine 0).tConf = some (cfg again.config .tConf) := by decide +kernel

/-- A transfer that has asked for band 0. -/
def reading (use : ReadUse) : State :=
  machine (fun g => { g with reads := [{ image := 0, band := 0, use := use }], readOutstanding := some 0, nextBand := 1 })
    { carrying (plate .active) .sending with dram := writeBlock [] 0 (storedBand [9#8]) }

/-- The image DAMAGED already, with the read of a transfer outstanding. -/
def readingDamaged : State := on (Work.modImage 0 (fun r => { r with state := .damaged })) (reading .live)

/-- The image named by a COMPLETE approved candidate, whose RELEASE waits, and a plate of the page in GATED. -/
def damagedCandidate : State :=
  on (fun w => { w with
    pages := [page .opened none (some { candidate 1 .complete with approved := true })]
    backlog := [{ key := key, kind := .release, sites := 3#8, carried := 0#8 }], entries := [plate .gated] }) printing

/-- A plate that waits while another of the same image is in transfer. -/
def beside : State := on (fun w => { w with entries := w.entries ++ [{ plate .queued with number := 9, acked := 1 }] }) (reading .live)

theorem witness_reads :
    ((reading .live).work.engine 0).reads = [{ image := 0, band := 0, use := .live }]
      ∧ (reading .live).work.findImage 0 = some (image .sealed 2) ∧ PoolSound (reading .live).work
      ∧ (reading .live).work.current 0 = some (plate .active) ∧ (printing.work.engine 0).reads = []
      ∧ (reading .live).work.findExtent (reading .live).work.scrubPos = some extent ∧ running.work.findExtent running.work.scrubPos = none
      ∧ (readingDamaged.work.findImage 0).map ImageRec.state = some .damaged
      ∧ (damagedCandidate.work.findPage key).map PageRec.state = some .opened ∧ PoolSound damagedCandidate.work
      ∧ damagedCandidate.work.releasedNames (plate .gated) 0 = false ∧ PoolSound beside.work
      ∧ beside.work.releasedNames { plate .queued with number := 9, acked := 1 } 0 = true ∧ beside.work.current 0 = some (plate .active) := by
  unfold PoolSound
  decide +kernel

theorem test_reads :
    ((after (exec (.bandReadDone 0 { corrected := 1, uncorrectable := false }) (reading .live))).work.engine 0).tx = [.band 1 0 [9#8]]
      ∧ ((after (exec (.bandReadDone 0 { corrected := 1, uncorrectable := false }) (reading .wentBack))).work.engine 0).tx = []
      ∧ (after (exec (.scrub { corrected := 0, uncorrectable := true }) printing)).work.images.map ImageRec.state = [.damaged]
      ∧ (after (exec (.scrub { corrected := 0, uncorrectable := true }) damagedCandidate)).work.backlog = []
      ∧ [printing, damagedCandidate].map (fun s =>
          (after (exec (.scrub { corrected := 0, uncorrectable := true }) s)).work.out.a.queue.map NoticeRec.notice)
        = [[.resupplyNeeded key .k 1], [.resupplyNeeded key .k 1]]
      ∧ (after (exec (.scrub { corrected := 0, uncorrectable := true }) damagedCandidate)).work.pages
        = [page .opened none (some { candidate 1 .collecting with approved := true })] := by
  decide +kernel

/-- R134, R146: a go-back or not, a DAMAGED answer aborts the transfer; an answer to a transfer before does not. -/
theorem test_damaged_answers :
    [ReadUse.live, .wentBack, .dropped].map (fun u =>
        (after (exec (.bandReadDone 0 { corrected := 0, uncorrectable := true }) (reading u))).work.entries.map Entry.state)
        = [[.aborting], [.aborting], [.active]]
      ∧ (after (exec (.bandReadDone 0 { corrected := 0, uncorrectable := false }) readingDamaged)).work.entries.map Entry.cause
        = [some .damaged]
      ∧ (after (exec (.bandReadDone 0 { corrected := 0, uncorrectable := true }) beside)).work.entries.map
        (fun e => (e.state, e.gates.resupply, e.acked)) = [(.aborting, false, 0), (.gated, true, 0)] := by decide +kernel

theorem witness_strays :
    inboundOf (.pressRun 0 1#8 1#8) = some 0 ∧ (running.work.qual 0).level = .down ∧ ((line .training running).work.qual 0).level = .training
      ∧ answerOf (.openAck 0 1#8 0#16) = some (0, 1#8) ∧ (printing.work.qual 0).inService = true ∧ (printing.work.engine 0).state = .idle
      ∧ ((carrying (plate .active) .opening).work.engine 0).tag ≠ (2#8 : Byte).toNat := by decide +kernel

/-- A plate with one of its two bands acknowledged and both sent. -/
def half (st : TransferState) : State := machine (fun g => { g with sentMark := 2 }) (carrying { plate .active with acked := 1 } st)

theorem witness_acknowledgements :
    ((half .opening).work.qual 0).inService = true ∧ ((half .opening).work.engine 0).state ≠ .idle
      ∧ ((half .opening).work.engine 0).tag = (1#8 : Byte).toNat ∧ (half .opening).work.current 0 = some { plate .active with acked := 1 }
      ∧ (half .opening).work.imageBands { plate .active with acked := 1 } = 2 ∧ ((half .sending).work.engine 0).sentMark < (3#16).toNat
      ∧ (2#16).toNat ≤ ((half .sending).work.engine 0).sentMark ∧ ((half .opening).work.engine 0).readOutstanding = none
      ∧ 0 < (half .opening).work.window running.config 0
      ∧ (carrying (target .active) .confirming).work.current 0 = some (target .active) := by decide +kernel

theorem test_acknowledgements :
    ((after (exec (.openAck 0 1#8 1#16) (half .opening))).work.engine 0).state = .sending
      ∧ ((after (exec (.openAck 0 1#8 2#16) (half .opening))).work.qual 0).level = .training
      ∧ ((after (exec (.bandAck 0 1#8 2#16) (half .sending))).work.engine 0).state = .confirming := by decide +kernel

theorem witness_ends :
    (carrying (plate .confirming) .confirming).work.current 0 = some (plate .confirming)
      ∧ ((carrying (plate .confirming) .confirming).work.engine 0).tag = (1#8 : Byte).toNat
      ∧ (carrying { plate .active with acked := 2 } .opening).work.imageBands { plate .active with acked := 2 } = 2
      ∧ (carrying (withdraw .confirming) .confirming).work.current 0 = some (withdraw .confirming)
      ∧ (carrying { plate .aborting with cause := some .killed } .aborting).work.current 0
        = some { plate .aborting with cause := some .killed }
      ∧ (carrying (plate .confirming) .confirming).work.findPage key = some (page .live (some (released 1)) none) := by decide +kernel

theorem test_ends :
    ((after (exec (.plateDone 0 1#8) (carrying (plate .confirming) .confirming))).work.findPage key).map (fun q => (q.site 0).held) = some 1
      ∧ (after (exec (.withdrawAck 0 1#8) (carrying (withdraw .confirming) .confirming))).work.entries = []
      ∧ (after (exec (.abortAck 0 1#8)
          (carrying { plate .aborting with cause := some .killed } .aborting))).work.entries = [] := by decide +kernel

/-- A plate that aborts for the damage of its image. -/
def returning (damaged : Bool) : State :=
  on (Work.modImage 0 (fun r => { r with state := if damaged then .damaged else .sealed }))
    (carrying { plate .aborting with cause := some .damaged, acked := 1 } .aborting)

theorem witness_returns :
    (returning true).work.current 0 = some { plate .aborting with cause := some .damaged, acked := 1 } ∧ PoolSound (returning true).work
      ∧ (returning true).work.editionOver (plate .aborting) = false ∧ (returning true).work.releasedOf (plate .aborting) = some (released 1)
      ∧ (returning true).work.imageDamaged 0 = true ∧ (returning false).work.imageDamaged 0 = false
      ∧ (carrying (target .aborting) .aborting).work.current 0 = some (target .aborting)
      ∧ (printing.work.editionSite .a 1 0).map (fun y => (y.pageCount, y.delivered)) = some (1, 0) := by
  unfold PoolSound
  decide +kernel

/-- R22, R73, R121 and chapter 7's answers to an aborting TARGET. -/
theorem test_returns :
    let done (e : Entry) := after (exec (.plateDone 0 1#8) (carrying e .confirming))
    (done (plate .confirming)).work.out.a.queue.map NoticeRec.notice = [.delivered key 0 1, .ready 1 0 false]
      ∧ (done (plate .confirming)).work.out.desk.queue.map NoticeRec.notice = [.ready 1 0 false]
      ∧ (done { plate .confirming with version := 2 }).work.out.desk.queue.map NoticeRec.notice = [.strayPlate 0 key .k 2]
      ∧ (after (exec (.abortAck 0 1#8) (returning true))).work.entries.map (fun e => (e.state, e.acked, e.gates.resupply)) = [(.gated, 0, true)]
      ∧ (after (exec (.abortAck 0 1#8) (returning false))).work.entries.map (fun e => (e.state, e.acked, e.gates.resupply))
        = [(.queued, 0, false)]
      ∧ ((after (exec (.abortAck 0 1#8) (carrying (target .aborting) .aborting))).work.engine 0).lineFailures = 1 := by decide +kernel

/-- A plate in transfer with a bound generation and a refusal count, S0 holding generation 1 of slot 0, the image DAMAGED or not. -/
def refusable (generation refusals : Nat) (damaged : Bool) : State :=
  on (fun w => ({ w with
    holdings := tput w.holdings 0 (tput (tget w.holdings 0) 0 1), slots := tput w.slots 0 { TargetSlot.reset with generation := 1 } } :
      Work).modImage 0 (fun r => { r with state := if damaged then .damaged else .sealed }))
    (carrying { plate .active with generation := generation, refusals := refusals, acked := 1 } .sending)

/-- Such a plate whose page has no record. -/
def pageless : State := on (fun w => { w with pages := [] }) (refusable 0 0 false)

theorem witness_refusals :
    PoolSound (carrying (plate .active) .opening).work ∧ (carrying (plate .active) .opening).work.current 0 = some (plate .active)
      ∧ (plate .active).refusals = 0 ∧ ({ plate .active with refusals := 1 } : Entry).refusals ≠ 0
      ∧ 0 < ({ plate .active with generation := 1 } : Entry).generation ∧ 3 < (4#32).toNat
      ∧ (carrying (plate .aborting) .aborting).work.current 0 = some (plate .aborting)
      ∧ PoolSound (refusable 1 0 true).work ∧ (refusable 1 0 true).work.editionOver (plate .active) = false
      ∧ (refusable 1 0 true).work.releasedOf (plate .active) = some (released 1) ∧ (refusable 1 0 true).work.imageDamaged 0 = true
      ∧ (refusable 0 0 false).work.imageDamaged 0 = false
      ∧ (refusable 0 1 false).work.current 0 = some { plate .active with refusals := 1, acked := 1 }
      ∧ pageless.work.releasedOf (plate .active) = none := by
  unfold PoolSound
  decide +kernel

theorem test_refusals :
    (after (exec (.plateRefused 0 1#8 2#32) (carrying (plate .active) .opening))).work.entries.map Entry.refusals = [1]
      ∧ (after (exec (.plateRefused 0 1#8 3#32) (carrying (plate .active) .opening))).work.entries = [] := by decide +kernel

/-- The entries left by a PLATE_REFUSED of line S0. -/
def refusedBy (reason : Word) (s : State) : List (EntryKind × Nat × Nat × Bool × Bool) :=
  (after (exec (.plateRefused 0 1#8 reason) s)).work.entries.map (fun e => (e.kind, e.refusals, e.acked, e.gates.target, e.gates.resupply))

/-- R121, R137: what TARGET_MISSING, and what a first UNREADABLE, leaves in the queue of a plate that begins again. -/
theorem test_refused_plate_begins_again :
    [refusedBy 1#32 (refusable 1 1 false), refusedBy 1#32 (refusable 0 0 false), refusedBy 1#32 (refusable 0 1 false),
        refusedBy 2#32 (refusable 1 0 true), refusedBy 2#32 pageless]
      = [[(.plate, 1, 0, true, false), (.target, 0, 0, false, false)], [(.plate, 1, 0, false, false)], [],
        [(.plate, 1, 0, false, true)], []] := by decide +kernel

theorem test_target_missing :
    (after (exec (.plateRefused 0 1#8 1#32) (refusable 0 1 false))).work.out.a.queue.map NoticeRec.notice
        = [.plateRefused 0 key .k 1 .targetMissing]
      ∧ (after (exec (.plateRefused 0 1#8 1#32) (refusable 1 0 false))).work.holding 0 0 = 0 := by decide +kernel

/-- Slot 0 at generation 2, S0 holding generation 1 with a hold set there. -/
def owed (e : Entry) (st : TransferState) : State :=
  on (fun w => (({ w with slots := tput w.slots 0 { TargetSlot.reset with generation := 2, patches := [{ sep := .k, tint := 50, aim := 100, tolerance := 10 }] } } :
    Work).setHolding 0 0 1).setCheck 0 0 { CheckRec.reset with hold := true, holdGeneration := 1 }) (carrying e st)

theorem witness_target_held :
    ((owed (target .confirming) .confirming).work.qual 0).inService = true ∧ (owed (target .confirming) .confirming).work.holding 0 0 = 1
      ∧ ((owed (target .confirming) .confirming).work.slot 0).generation = 2 ∧ (1#16).toNat ≤ 2 ∧ 2 < (3#16).toNat
      ∧ ((owed (target .confirming) .confirming).work.check 0 0).holdGeneration < (2#16).toNat
      ∧ PoolSound (owed { target .confirming with generation := 2 } .confirming).work
      ∧ (owed { target .confirming with generation := 2 } .confirming).work.current 0 = some { target .confirming with generation := 2 } := by
  unfold PoolSound
  decide +kernel

theorem test_target_held :
    let s := after (exec (.targetHeld 0 0#8 2#16) (owed { target .confirming with generation := 2 } .confirming))
    s.work.holding 0 0 = 2 ∧ s.work.entries = [] ∧ s.work.check 0 0 = .reset := by decide +kernel

theorem witness_press_run :
    (printing.work.qual 0).inService = true ∧ titleOf 3#8 = none ∧ printing.work.editionSite .a 2 0 = none
      ∧ printing.work.editionState .a 1 ≠ some .retiring
      ∧ (printing.work.editionSite .a 1 0).map EditionSite.state = some .waiting
      ∧ ((on (fun w => { w with editions := [edition .opened .running 100] }) printing).work.editionSite .a 1 0).map EditionSite.state
        = some .running := by decide +kernel

theorem test_press_run :
    ((after (exec (.pressRun 0 1#8 1#8) printing)).work.editionSite .a 1 0).map EditionSite.state = some .running
      ∧ (tget (after (exec (.pressRun 0 3#8 1#8) printing)).work.siteCounters 0).strayPressRuns = 1 := by decide +kernel

/-- A slot of one patch at the generation S0 holds, one report below the OUT limit. -/
def measured : State :=
  on (fun w => (w.setHolding 0 0 2).setCheck 0 0 { CheckRec.reset with outCount := 2 }) (owed (plate .queued) .idle)

theorem witness_measure :
    (measured.work.qual 0).inService = true ∧ readingsOf 1 [4000#16, 0#16] = [some 4000] ∧ readingsOf 1 [4001#16, 0#16] = [some 4001]
      ∧ readingsOf 1 [0xFFFF#16, 0#16] = [none] ∧ [4000#16, 0#16].length = 2 * (((1#8 : Byte).toNat + 1) / 2)
      ∧ ([] : List (BitVec 16)).length ≠ 2 * (((1#8 : Byte).toNat + 1) / 2)
      ∧ measured.work.holding 0 0 = (2#16).toNat ∧ (2#16).toNat = (measured.work.slot 0).generation
      ∧ (1#8 : Byte).toNat ≤ (measured.work.slot 0).patches.length ∧ (measured.work.slot 0).patches.length < (2#8 : Byte).toNat
      ∧ deviations [some 111] (measured.work.slot 0).patches = [(11, 10)]
      ∧ deviations [some 110] (measured.work.slot 0).patches = [(10, 10)] ∧ cfg measured.config .outLimit = 3
      ∧ (measured.work.check 0 0).hold = false := by decide +kernel

theorem test_measure :
    ((after (exec (.measure 0 0#8 1#8 2#16 [111#16, 0#16]) measured)).work.check 0 0).hold = true
      ∧ ((after (exec (.measure 0 0#8 1#8 2#16 [110#16, 0#16]) measured)).work.check 0 0).outCount = 0
      ∧ (tget (after (exec (.measure 0 0#8 1#8 1#16 [110#16, 0#16]) measured)).work.siteCounters 0).staleMeasures = 1 := by decide +kernel

/-- A header word with no body whose CRC word is 0. -/
def badWords : List Word := [0x83010000#32, 0#32]

theorem witness_failures :
    (printing.work.qual 0).inService = true ∧ (printing.work.qual 0).windowBad + 1 < cfg printing.config .frameThreshold
      ∧ cfg printing.config .frameThreshold
        ≤ ((qualifier (fun q => { q with windowBad := 7 }) printing).work.qual 0).windowBad + 1
      ∧ frameBad badWords = true ∧ frameBad [0x83010000#32, frameCrc 0x83010000#32 []] = false ∧ frameBad [0x0100F003#32] = true
      ∧ frameBad [0x0100F002#32] = false ∧ framingLost (List.replicate 32 none) = true ∧ framingLost (List.replicate 31 none) = false
      ∧ inboundLengthOk 0x81#8 (2#16).toNat = false ∧ inboundLengthOk 0x81#8 (1#16).toNat = true
      ∧ (61442#16).toNat = 61442 ∧ 61442 < (61443#16).toNat := by decide +kernel

theorem test_failures :
    ((after (exec (.badFrame ⟨0, badWords⟩) (qualifier (fun q => { q with windowBad := 7 }) printing))).work.qual 0).level = .training
      ∧ ((after (exec (.badFrame ⟨0, badWords⟩) printing)).work.qual 0).windowBad = 1
      ∧ ((after (exec (.framingLoss ⟨0, List.replicate 32 none⟩) printing)).work.qual 0).counters.lockLosses = 1
      ∧ ((after (exec (.frameNotInbound 0 1#8 7#16) printing)).work.engine 0).lineFailures = 1
      ∧ ((after (exec (.frameNotInbound 0 1#8 61443#16) printing)).work.qual 0).windowBad = 1 := by decide +kernel

theorem test_site_restart :
    let s := after (exec (.siteRestart 0) (carrying (plate .active) .sending))
    s.work.entries = [] ∧ s.work.backlog = [{ key := key, kind := .reseed, sites := 1#8, carried := 0#8 }]
      ∧ s.work.out.desk.queue.map NoticeRec.notice = [.lineTraining 0 .siteRestart, .siteRestart 0] := by decide +kernel

/-- The LIVE page, or the page KILLED, with a membership for S1. -/
def restarting (st : PageState) (k : BacklogKind) (sites : SiteSet) : State :=
  on (fun w => { w with pages := [page st (some (released 1)) none], backlog := [{ key := key, kind := k, sites := sites, carried := 0#8 }] })
    printing

/-- R13, R25: a SITE_RESTART and the memberships. -/
theorem test_site_restart_joins :
    let left (s : State) := (after (exec (.siteRestart 0) s)).work.backlog
    left (restarting .live .reseed 2#8) = [{ key := key, kind := .reseed, sites := 3#8, carried := 0#8 }]
      ∧ left (restarting .live .release 2#8) = [{ key := key, kind := .release, sites := 3#8, carried := 1#8 }]
      ∧ left (restarting .killed .withdraw 3#8) = [{ key := key, kind := .withdraw, sites := 2#8, carried := 0#8 }]
      ∧ left (restarting .killed .withdraw 1#8) = []
      ∧ left (restarting .opened .release 2#8) = [{ key := key, kind := .release, sites := 2#8, carried := 0#8 }]
      ∧ (restarting .live .reseed 2#8).work.siteClosed .a 1 0 = false ∧ SiteSet.has (released 1).mask 0 = true
      ∧ (printing.work.editionState .a 1 ≠ some .retiring) := by decide +kernel

/-- A transfer with a timer running. -/
def timed (e : Entry) (st : TransferState) (tAck tConf : Option Nat) (expiry : Nat) : State :=
  machine (fun g => { g with tAck := tAck, tConf := tConf, expiry := expiry }) (carrying e st)

theorem witness_timers :
    (printing.work.engine 0).tAck = none ∧ printing.work.current 0 = none
      ∧ (timed (plate .active) .opening (some 5) none 1).work.current 0 = some (plate .active)
      ∧ ((timed (plate .active) .opening (some 5) none 1).work.engine 0).expiry + 1 < 3
      ∧ 3 ≤ ((timed (plate .active) .sending (some 5) none 2).work.engine 0).expiry + 1
      ∧ ((timed (plate .aborting) .aborting (some 5) none 0).work.engine 0).tAck.isSome = true
      ∧ ((timed (target .confirming) .confirming none (some 120) 1).work.engine 0).tConf.isSome = true
      ∧ (plate .active).acked < (timed (plate .active) .sending (some 5) none 1).work.imageBands (plate .active)
      ∧ 0 < (timed (plate .active) .sending (some 5) none 1).work.window running.config 0 := by decide +kernel

theorem test_timers :
    ((after (exec (.tAckExpiry 0) (timed (plate .active) .sending (some 5) none 2))).work.qual 0).level = .training
      ∧ ((after (exec (.tAckExpiry 0) (timed (plate .active) .opening (some 5) none 1))).work.engine 0).tx.length = 1
      ∧ ((after (exec (.tConfExpiry 0) (timed (plate .confirming) .confirming none (some 120) 0))).work.engine 0).state = .opening := by
  decide +kernel

/-! ### Witnesses: training -/

/-- Line S0 in training. -/
def training (f : Qualifier → Qualifier) : State := qualifier (fun q => f q.trained) running

theorem witness_training_words :
    ((training id).work.qual 0).level = .training ∧ attemptOver running.config ((training id).work.qual 0) = false
      ∧ attemptOver running.config ((training (fun q => { q with identical := 256 })).work.qual 0) = true
      ∧ ((training id).work.qual 0).checker = .search ∧ (running.work.qual 0).level ≠ .training
      ∧ ((training (fun q => { q with checker := .locked, confirm := 1023 })).work.qual 0).confirm + 1 = 1024
      ∧ attemptOver running.config ((training (fun q => { q with checker := .measure })).work.qual 0) = false
      ∧ ((training (fun q => { q with matchRun := 63 })).work.qual 0).matchRun + 1 = 64 := by decide +kernel

theorem witness_agreeing_word :
    ∃ g w, ((training (fun q => { q with gen := some prbsStart })).work.qual 0).gen = some g
      ∧ some 0xFFFFFFFE#32 = some w ∧ prbsWord g = w := ⟨prbsStart, 0xFFFFFFFE#32, by decide +kernel, rfl, by decide +kernel⟩

theorem test_training_words :
    ((after (exec (.trainWordPeriod 0 (some 0xFFFFFFFE#32))
        (training (fun q => { q with gen := some prbsStart, matchRun := 63 })))).work.qual 0).checker = .locked
      ∧ ((after (exec (.trainWordPeriod 0 (some 0xFFFFFFFE#32))
        (training (fun q => { q with gen := some prbsStart, checker := .locked, confirm := 1023 })))).work.qual 0).checker = .measure
      ∧ ((after (exec (.trainWordPeriod 0 none) (training id))).work.engine 0).lineOut = [0xB4E1D22D#32] := by decide +kernel

/-- R151: the TRAIN frame begins behind the frame in transmission; R152: a mismatch in LOCKED reloads the generator. -/
theorem test_training_waits_and_reloads :
    let busy := machine (fun g => { g with tx := [.pageWithdraw 1 key 1] }) (training id)
    let lost := after (exec (.trainWordPeriod 0 (some 0x80000001#32)) (training (fun q => { q with gen := some prbsStart, checker := .locked })))
    ((after (exec (.trainWordPeriod 0 none) busy)).work.qual 0).txPos = 0
      ∧ (lost.work.qual 0).checker = .search ∧ (lost.work.qual 0).gen = some (prbsLoad 0x80000001#32)
      ∧ (lost.work.qual 0).counters.lockLosses = 1 := by decide +kernel

theorem witness_verdicts :
    ((training (fun q => { q with periods := 65536, attempt := 4 })).work.qual 0).attempt = 4
      ∧ ((training (fun q => { q with periods := 65536, attempt := 3 })).work.qual 0).attempt < 4
      ∧ 256 ≤ ((training (fun q => { q with identical := 256 })).work.qual 0).identical
      ∧ cfg running.config .limitSelection = 0
      ∧ cfg running.config .wordLimit
        ≤ ((training (fun q => { q with checker := .measure, counters := { q.counters with words := 1048576 } })).work.qual 0).counters.words
      ∧ cfg running.config .preload = 0 ∧ 2 ≤ cfg running.config .tUp ∧ cfg running.config .tUp < 3 ∧ 64 ≤ cfg running.config .tDeg
      ∧ cfg running.config .tDeg < 65
      ∧ cfg (setCfg running.config .limitSelection 1#32) .limitSelection ≠ 0 := by decide +kernel

/-- Line S0 at the end of a measurement window with a number of errors. -/
def windowed (n : Nat) : State :=
  training (fun q => { q with checker := .measure, counters := { q.counters with words := 1048576, errors := n } })

theorem test_verdicts :
    ((after (exec (.measureWindowEnd 0) (windowed 2))).work.qual 0).level = .up
      ∧ ((after (exec (.measureWindowEnd 0) (windowed 3))).work.qual 0).level = .degraded
      ∧ ((after (exec (.measureWindowEnd 0) (windowed 65))).work.qual 0).attempt = 2
      ∧ ((after (exec (.attemptStuck 0) (training (fun q => { q with identical := 256 })))).work.qual 0).level = .down
      ∧ ((after (exec (.attemptNoLock 0)
          (training (fun q => { q with periods := 65536, attempt := 4 })))).work.qual 0).tRetry = some 60 := by decide +kernel

end Sys2Proof.Tests
end

/-! ## Image submission: the settled statements of BAND, IMAGE_BEGIN, IMAGE_END and RESYNC, with the laws they rest on -/

namespace Sys2Proof.Machine

/-! ### Records found by their number after the operations of the Image Store -/

/-- Changing the elements a search is for, in a way the search still accepts them, changes the element found. -/
theorem find?_map_update {α : Type} {p : α → Bool} {f : α → α} (hf : ∀ x, p x = true → p (f x) = true) (l : List α) :
    (l.map (fun x => if p x then f x else x)).find? p = (l.find? p).map f := by
  induction l with
  | nil => rfl
  | cons x xs ih =>
    rw [List.map_cons]
    by_cases hx : p x = true
    · rw [if_pos hx, List.find?_cons_of_pos (hf x hx), List.find?_cons_of_pos hx, Option.map_some]
    · rw [if_neg hx, List.find?_cons_of_neg hx, List.find?_cons_of_neg hx, ih]

@[simp] theorem Work.findImage_setParser (t : Title) (p : Parser) (w : Work) (id : Nat) :
    (w.setParser t p).findImage id = w.findImage id := rfl

@[simp] theorem Work.findImage_toTitle (t : Title) (n : Notice) (w : Work) (id : Nat) :
    (w.toTitle t n).findImage id = w.findImage id := by
  simp [Work.findImage]

theorem Work.findImage_modImage_same {w : Work} {id : Nat} {r : ImageRec} (f : ImageRec → ImageRec) (hf : ∀ r, (f r).id = r.id)
    (hr : w.findImage id = some r) : (w.modImage id f).findImage id = some (f r) :=
  (find?_map_update (fun r hr => by rwa [hf]) w.images).trans (congrArg _ hr)

@[simp] theorem Work.freeImage_out (id : Nat) (w : Work) : (w.freeImage id).out = w.out := by
  unfold Work.freeImage; split <;> rfl

@[simp] theorem Work.freeImage_pages (id : Nat) (w : Work) : (w.freeImage id).pages = w.pages := by
  unfold Work.freeImage; split <;> rfl

@[simp] theorem Work.findImage_freeImage_same (id : Nat) (w : Work) : (w.freeImage id).findImage id = none := by
  unfold Work.freeImage
  split
  · assumption
  · simp [Work.findImage]

theorem Work.number_of_findExtent {w : Work} {n : Nat} {e : Extent} (h : w.findExtent n = some e) : e.number = n := by
  simpa using List.find?_some h

/-! ### The lowest free number (R52, R55) -/

theorem firstFree_below {taken : Nat → Bool} {tries k n j : Nat} (h : firstFree taken tries k = some n) (hk : k ≤ j) (hj : j < n) :
    taken j = true := by
  induction tries generalizing k with
  | zero => cases h
  | succ tries ih =>
    simp only [firstFree] at h
    split at h
    · next hkt =>
      rcases Nat.eq_or_lt_of_le hk with rfl | hk
      · exact hkt
      · exact ih h hk
    · cases h; omega

theorem firstFree_none {taken : Nat → Bool} {tries k j : Nat} (h : firstFree taken tries k = none) (hk : k ≤ j) (hj : j < k + tries) :
    taken j = true := by
  induction tries generalizing k with
  | zero => omega
  | succ tries ih =>
    simp only [firstFree] at h
    split at h
    · next hkt =>
      rcases Nat.eq_or_lt_of_le hk with rfl | hk
      · exact hkt
      · exact ih h hk (by omega)
    · cases h

theorem Work.isSome_findExtent (w : Work) (n : Nat) : (w.findExtent n).isSome = w.extents.any (fun e => e.number == n) :=
  List.isSome_find?

theorem Work.lowestExtent_spec {w : Work} {n : Nat} (h : w.lowestExtent = some n) :
    n < w.extentCount ∧ w.findExtent n = none ∧ ∀ k, k < n → (w.findExtent k).isSome = true := by
  obtain ⟨hfree, -, hlt⟩ := firstFree_some h
  refine ⟨by omega, ?_, fun k hk => ?_⟩
  · rwa [← Option.not_isSome_iff_eq_none, w.isSome_findExtent, Bool.not_eq_true]
  · rw [w.isSome_findExtent]
    exact firstFree_below h (Nat.zero_le k) hk

/-- With fewer descriptors than extents some number is free: else every number below the count would be a descriptor's. -/
theorem Work.lowestExtent_of_lt {w : Work} (h : w.extents.length < w.extentCount) : ∃ n, w.lowestExtent = some n := by
  cases hl : w.lowestExtent with
  | some n => exact ⟨n, rfl⟩
  | none =>
    have hall : List.range w.extentCount ⊆ w.extents.map Extent.number := fun k hk => by
      have := firstFree_none hl (Nat.zero_le k) (by simpa using hk)
      simpa using this
    have := List.nodup_range.length_le_of_subset hall
    simp only [List.length_range, List.length_map] at this
    omega

/-! ### Placing a band (R54 to R56) -/

theorem Work.claimGranted_iff (t : Title) (w : Work) : w.claimGranted t = true ↔
    w.used.get t < w.quota.get t
      ∨ (w.used.a - w.quota.a) + (w.used.b - w.quota.b) < w.extentCount - w.quota.a - w.quota.b := by
  simp [Work.claimGranted, Work.overflow, Work.sharedPart, PerTitle.get, Nat.blt_eq]

theorem Work.tailRoom_of_room {w : Work} {r : ImageRec} {size n : Nat} {e : Extent} (hn : r.tail = some n)
    (he : w.findExtent n = some e) (hroom : e.used + size + 4 ≤ 262144) : w.tailRoom r size = some e := by
  simp [Work.tailRoom, hn, he, extentBytes, hroom]

theorem Work.tailRoom_of_full {w : Work} {r : ImageRec} {size : Nat}
    (h : ∀ n e, r.tail = some n → w.findExtent n = some e → 262144 < e.used + size + 4) : w.tailRoom r size = none := by
  unfold Work.tailRoom
  split
  · rfl
  · next n hn =>
    split
    · rfl
    · next e he => exact if_neg (by have := h n e hn he; unfold extentBytes; omega)

/-- The extent pool after a band was put into extent n. -/
def Work.growExtent (n size : Nat) (w : Work) : Work :=
  { w with extents := w.extents.map (fun x => if x.number == n then { x with used := x.used + size + 4 } else x) }

/-- The extent pool after image `id` claimed extent n behind its tail for band i (R55, R56). -/
def Work.claimExtent (id i size n : Nat) (r : ImageRec) (w : Work) : Work :=
  { w with
    extents := w.extents.map (fun x => if some x.number == r.tail then { x with next := some n } else x)
      ++ [{ number := n, holder := id, next := none, used := size + 4, firstBand := i }]
    freeExtents := w.freeExtents - 1
    used := w.used.put r.key.title (w.used.get r.key.title + 1) }

/-- An image record after its band went into the newly claimed extent n. -/
def ImageRec.extended (n size : Nat) (r : ImageRec) : ImageRec :=
  { r with
    bandsStored := r.bandsStored + 1, bytesStored := r.bytesStored + size,
    head := if r.head = none then some n else r.head, tail := some n, extentsHeld := r.extentsHeld + 1 }

theorem Work.findExtent_growExtent {w : Work} {n : Nat} {e : Extent} (size : Nat) (he : w.findExtent n = some e) :
    (w.growExtent n size).findExtent n = some { e with used := e.used + size + 4 } :=
  (find?_map_update (p := fun x : Extent => x.number == n) (f := fun x => { x with used := x.used + size + 4 }) (fun _ h => h)
    w.extents).trans (congrArg _ he)

/-- The new descriptor is the one found: linking it to the old tail changed no number. -/
theorem Work.findExtent_claimExtent {w : Work} {n : Nat} (id i size : Nat) (r : ImageRec) (hn : w.findExtent n = none) :
    (w.claimExtent id i size n r).findExtent n
      = some { number := n, holder := id, next := none, used := size + 4, firstBand := i } := by
  have hlinked (x : Extent) : (if some x.number == r.tail then { x with next := some n } else x).number = x.number := by
    split <;> rfl
  have hold (x : Extent) (hx : x ∈ w.extents) : x.number ≠ n := by simpa using List.find?_eq_none.mp hn x hx
  unfold Work.findExtent Work.claimExtent
  rw [List.find?_append, List.find?_eq_none.mpr fun y hy => ?_]
  · simp
  · obtain ⟨x, hx, rfl⟩ := List.mem_map.mp hy
    rw [beq_iff_eq, hlinked]
    exact hold x hx

theorem extentAddr_zero (n : Nat) : extentAddr n 0 = n * 262144 := by
  simp [extentAddr, extentBytes]

section PlaceBand
variable {w : Work} {id size n : Nat} {r : ImageRec}

/-- A band that fits goes behind the bands of the tail extent. -/
theorem Work.placeBand_inTail {e : Extent} (i : Nat) (hr : w.findImage id = some r) (hn : r.tail = some n)
    (he : w.findExtent n = some e) (hroom : e.used + size + 4 ≤ 262144) :
    w.placeBand id i size = ((w.growExtent n size).modImage id (ImageRec.stored size), some (n * 262144 + e.used)) := by
  simp only [Work.placeBand, hr, Work.tailRoom_of_room hn he hroom, Work.number_of_findExtent he]
  rfl

/-- A band that does not fit begins the lowest-numbered free extent when the claim is granted. -/
theorem Work.placeBand_inClaimed (i : Nat) (hr : w.findImage id = some r) (hfull : w.tailRoom r size = none)
    (hg : w.claimGranted r.key.title = true) (hn : w.lowestExtent = some n) :
    w.placeBand id i size = ((w.claimExtent id i size n r).modImage id (ImageRec.extended n size), some (n * 262144)) := by
  simp only [Work.placeBand, hr, hfull, hg, hn, if_true]
  refine Prod.ext (congrArg (Work.modImage id · _) (funext fun x => ?_)) (congrArg some (extentAddr_zero n))
  cases hh : x.head <;> simp [ImageRec.stored, ImageRec.extended, hh]

/-- A band that does not fit and whose claim is refused is not placed, and its image is in OVERRUN. -/
theorem Work.placeBand_refused (i : Nat) (hr : w.findImage id = some r) (hfull : w.tailRoom r size = none)
    (hg : w.claimGranted r.key.title = false) :
    w.placeBand id i size = (w.modImage id (fun r => { r with state := .overrun }), none) := by
  simp [Work.placeBand, hr, hfull, hg]

end PlaceBand

/-! ### The stored form of a band (R54, log 23) -/

theorem length_storedBand (payload : List Byte) : (storedBand payload).length = payload.length + 4 := by
  simp [storedBand, storedBand.wordBytesOfNat]

theorem storedBand_getD_payload (payload : List Byte) (k : Nat) : (storedBand payload).getD (4 + k) 0#8 = payload.getD k 0#8 := by
  rw [Nat.add_comm]; rfl

/-- The four bytes of a length word hold the length. -/
theorem lengthBytes_value {n : Nat} (h : n < 4294967296) :
    (storedBand.wordBytesOfNat n).foldl (fun m b => m * 256 + b.toNat) 0 = n := by
  simp only [storedBand.wordBytesOfNat, List.foldl_cons, List.foldl_nil, BitVec.toNat_ofNat]
  omega

theorem readBytes_writeBlock_append (m : List Host.Cell) (a : Nat) (bs rest : List Byte) :
    readBytes (writeBlock m a (bs ++ rest)) a bs.length = bs := by
  suffices h : ∀ j l, bs.drop j = l → readBytes (writeBlock m a (bs ++ rest)) (a + j) l.length = l from h 0 bs rfl
  intro j l hl
  induction l generalizing j with
  | nil => rfl
  | cons b l ih =>
    have hj : j < bs.length := by
      have := congrArg List.length hl
      simp only [List.length_drop, List.length_cons] at this
      omega
    rw [List.drop_eq_getElem_cons hj, List.cons.injEq] at hl
    obtain ⟨rfl, hl⟩ := hl
    have hb := readByte_writeBlock_inside m a (bs ++ rest) j (by rw [List.length_append]; omega)
    rw [List.length_cons, readBytes, Nat.add_assoc, ih (j + 1) hl, hb, List.getD_eq_getElem?_getD, List.getElem?_append_left hj,
      List.getElem?_eq_getElem hj, Option.getD_some]

theorem readLength_writeBlock_storedBand (m : List Host.Cell) (a : Nat) (payload : List Byte) (h : payload.length < 4294967296) :
    readLength (writeBlock m a (storedBand payload)) a = payload.length := by
  have hw : readBytes (writeBlock m a (storedBand payload)) a 4 = storedBand.wordBytesOfNat payload.length :=
    readBytes_writeBlock_append m a (storedBand.wordBytesOfNat payload.length) payload
  rw [readLength, hw, lengthBytes_value h]

/-! ### A message taken by its owner -/

@[simp] theorem State.takesMessage_setWork (w : Work) (s : State) (p : PortId) (i : Instr) :
    (s.setWork w).takesMessage p i = s.takesMessage p i := by
  cases p <;> rfl

@[simp] theorem State.asmOf_setWork (w : Work) (s : State) (p : PortId) : (s.setWork w).asmOf p = s.asmOf p := by
  cases p <;> rfl

theorem State.setAsm_setWork (w : Work) (s : State) (p : PortId) (a : Assembler) :
    (s.setWork w).setAsm p a = (s.setAsm p a).setWork w := by
  cases p <;> rfl

theorem State.messageTaken_setWork (w : Work) (s : State) (p : PortId) :
    (s.setWork w).messageTaken p = (s.messageTaken p).setWork w := by
  by_cases hc : (s.asmOf p).complete = true <;> simp [State.messageTaken, hc, State.setAsm_setWork]

theorem State.messageTaken_setWork_same (s : State) (p : PortId) : (s.messageTaken p).setWork s.work = s.messageTaken p := by
  rw [← State.messageTaken_setWork]; rfl

theorem State.message_taken {s : State} {p : PortId} {i : Instr} (f : Work → Work) (h : s.takesMessage p i = true) :
    s.message p i f = (s.messageTaken p).setWork (f s.work) := if_pos h

theorem exec_imageBegin_taken {p : Title} {m : BeginMsg} {s : State} (h : s.takesMessage (.title p) (.imageBegin p m) = true) :
    exec (.imageBegin p m) s = .next ((s.messageTaken (.title p)).setWork (s.work.imageBegin p m)) :=
  congrArg _ (State.message_taken _ h)

theorem exec_imageEnd_taken {p : Title} {total crc : Word} {s : State} (h : s.takesMessage (.title p) (.imageEnd p total crc) = true) :
    exec (.imageEnd p total crc) s = .next ((s.messageTaken (.title p)).setWork (s.work.imageEnd p total.toNat crc)) :=
  congrArg _ (State.message_taken _ h)

section Band
variable {p : Title} {mark : Byte} {payload : List Byte} {s : State}

theorem exec_band_dropped (h : s.takesMessage (.title p) (.band p mark payload) = false) : exec (.band p mark payload) s = .next s := by
  show execBand p mark payload s = _
  simp [execBand, h]

/-- A BAND the Image Store stores at an address is written there. -/
theorem exec_band_stored {w : Work} {a : Nat} (h : s.takesMessage (.title p) (.band p mark payload) = true)
    (hb : s.work.takeBand p mark payload = (w, some a)) :
    exec (.band p mark payload) s
      = .next { (s.messageTaken (.title p)).setWork w with dram := writeBlock s.dram a (storedBand payload) } := by
  show execBand p mark payload s = _
  simp [execBand, h, State.takeBand, hb]

/-- A BAND the Image Store does not store leaves the DRAM. -/
theorem exec_band_unstored {w : Work} (h : s.takesMessage (.title p) (.band p mark payload) = true)
    (hb : s.work.takeBand p mark payload = (w, none)) :
    exec (.band p mark payload) s = .next ((s.messageTaken (.title p)).setWork w) := by
  show execBand p mark payload s = _
  simp [execBand, h, State.takeBand, hb]

end Band

/-! ### Outside an image (R36, R39, R40, R44) -/

section Outside
variable {t : Title} {w : Work}

theorem Work.takeBand_discard (mark : Byte) (payload : List Byte) (h : (w.parser t).state = .discard) :
    w.takeBand t mark payload = (w, none) := by
  simp [Work.takeBand, h]

theorem Work.takeBand_idle (mark : Byte) (payload : List Byte) (h : (w.parser t).state = .idle) :
    w.takeBand t mark payload = (w.submitProtocol t, none) := by
  simp [Work.takeBand, h]

theorem Work.endDiscard_result {r : PendingResult} (h : (w.parser t).result = some r) :
    w.endDiscard t = (w.toTitle t (.submitResult (some r.key) r.sepCode r.version r.result r.bands r.bytes)).setParser t .reset := by
  simp [Work.endDiscard, Work.submitResult, h]

theorem Work.imageEnd_discard (total : Nat) (crc : Word) (h : (w.parser t).state = .discard) :
    w.imageEnd t total crc = w.endDiscard t := by
  simp [Work.imageEnd, h]

theorem Work.imageEnd_idle (total : Nat) (crc : Word) (h : (w.parser t).state = .idle) :
    w.imageEnd t total crc = w.submitProtocol t := by
  simp [Work.imageEnd, h]

theorem Work.imageBegin_discard (m : BeginMsg) (h : (w.parser t).state = .discard) :
    w.imageBegin t m = (w.endDiscard t).beginIdle t m := by
  simp [Work.imageBegin, h]

theorem Work.imageBegin_idle (m : BeginMsg) (h : (w.parser t).state = .idle) : w.imageBegin t m = w.beginIdle t m := by
  simp [Work.imageBegin, h]

end Outside

/-! ### A band of an open image (R37, R38, R45) -/

section OpenBand
variable {t : Title} {mark : Byte} {payload : List Byte} {w : Work} {i : OpenImage}

theorem Work.takeBand_rejected {r : Result} (ho : (w.parser t).state = .opened) (hi : (w.parser t).image = some i)
    (hf : (w.parser t).bandFault mark.toNat payload.length = some r) :
    w.takeBand t mark payload
      = ((w.freeImage i.image).setParser t (.discarding ((w.parser t).resultOf i r)), none) := by
  simp [Work.takeBand, Work.rejectOpen, ho, hi, hf]

theorem Work.takeBand_notStoring (ho : (w.parser t).state = .opened) (hi : (w.parser t).image = some i)
    (hf : (w.parser t).bandFault mark.toNat payload.length = none) (hs : (w.parser t).storing = false) :
    w.takeBand t mark payload = (w.setParser t ((w.parser t).counted payload), none) := by
  simp [Work.takeBand, ho, hi, hf, hs]

theorem Work.takeBand_placed {u : Work} {a : Nat} (ho : (w.parser t).state = .opened) (hi : (w.parser t).image = some i)
    (hf : (w.parser t).bandFault mark.toNat payload.length = none) (hs : (w.parser t).storing = true)
    (hp : w.placeBand i.image (w.parser t).bandCounter payload.length = (u, some a)) :
    w.takeBand t mark payload = (u.setParser t ((w.parser t).counted payload), some a) := by
  simp [Work.takeBand, ho, hi, hf, hs, hp]

theorem Work.takeBand_notPlaced {u : Work} (ho : (w.parser t).state = .opened) (hi : (w.parser t).image = some i)
    (hf : (w.parser t).bandFault mark.toNat payload.length = none) (hs : (w.parser t).storing = true)
    (hp : w.placeBand i.image (w.parser t).bandCounter payload.length = (u, none)) :
    w.takeBand t mark payload = (u.setParser t { (w.parser t).counted payload with storing := false }, none) := by
  simp [Work.takeBand, ho, hi, hf, hs, hp]

end OpenBand

section BandFault
variable {p : Parser} {mark size : Nat}

theorem Parser.bandFault_sequence (h : mark ≠ p.bandCounter % 16) : p.bandFault mark size = some .badBandSequence := by
  simp [Parser.bandFault, h]

theorem Parser.bandFault_empty (h : mark = p.bandCounter % 16) : p.bandFault mark 0 = some .badArgument := by
  simp [Parser.bandFault, h]

theorem Parser.bandFault_long (h : mark = p.bandCounter % 16) (hl : 245760 < size) : p.bandFault mark size = some .bandTooLong := by
  simp [Parser.bandFault, h, bandLimit, hl, show size ≠ 0 by omega]

theorem Parser.bandFault_count (h : mark = p.bandCounter % 16) (h0 : size ≠ 0) (hl : size ≤ 245760)
    (hc : p.bandCounter = p.declaredBands) : p.bandFault mark size = some .bandCountMismatch := by
  simp [Parser.bandFault, ← hc, h, bandLimit, h0, hl]

theorem Parser.bandFault_none (h : mark = p.bandCounter % 16) (h0 : size ≠ 0) (hl : size ≤ 245760)
    (hc : p.bandCounter ≠ p.declaredBands) : p.bandFault mark size = none := by
  simp [Parser.bandFault, h, bandLimit, h0, hl, hc]

end BandFault

/-! ### What a BAND does (R37, R39, R54 to R56) -/

/-- Settles O11: the block a stored BAND writes is its length word and payload, at the address the Image Store answered. -/
theorem bandWritesItsBlockOnly : Obligations.BandWritesItsBlockOnly := by
  intro p mark payload s
  cases ht : s.takesMessage (.title p) (.band p mark payload) with
  | false => exact ⟨s, exec_band_dropped ht, by simp, fun _ => rfl⟩
  | true =>
    cases hb : s.work.takeBand p mark payload with
    | mk w a =>
      cases a with
      | none => exact ⟨_, exec_band_unstored ht hb, by simp, fun _ => by simp⟩
      | some base =>
        refine ⟨_, exec_band_stored ht hb, fun _ a ha => ?_, by simp⟩
        obtain rfl : base = a := Option.some.inj ha
        refine ⟨fun x hx => ?_, fun k hk => ?_, readLength_writeBlock_storedBand s.dram base payload⟩
        · exact readByte_writeBlock_outside s.dram base _ x (by rwa [length_storedBand])
        · rw [Nat.add_assoc, ← storedBand_getD_payload]
          exact readByte_writeBlock_inside s.dram base _ (4 + k) (by rw [length_storedBand]; omega)

/-- A BAND that fails a check of R37 rejects its image into DISCARD. -/
theorem exec_band_rejected {p : Title} {mark : Byte} {payload : List Byte} {s : State} {i : OpenImage} {r : Result}
    (ht : s.takesMessage (.title p) (.band p mark payload) = true) (ho : (s.work.parser p).state = .opened)
    (hi : (s.work.parser p).image = some i) (hf : (s.work.parser p).bandFault mark.toNat payload.length = some r) :
    ∃ t, exec (.band p mark payload) s = .next t ∧ t.work.findImage i.image = none ∧ t.work.out = s.work.out
      ∧ t.work.pages = s.work.pages ∧ t.dram = s.dram
      ∧ t.work.parser p = .discarding ((s.work.parser p).resultOf i r) :=
  ⟨_, exec_band_unstored ht (Work.takeBand_rejected ho hi hf), by simp, by simp, by simp, by simp, by simp⟩

/-- Settles O32: the checks in their order, then the three places a stored band can go, by the equations of `placeBand`. -/
theorem bandsAreCountedAndPlaced : Obligations.BandsAreCountedAndPlaced := by
  intro p mark payload pr i s rejected counted ht hpr ho hi
  subst hpr
  have hlen : payload ≠ [] → payload.length ≠ 0 := fun h => by simpa using h
  refine ⟨fun hm => exec_band_rejected ht ho hi (Parser.bandFault_sequence hm),
    fun hm h0 => exec_band_rejected ht ho hi (by rw [h0]; exact Parser.bandFault_empty hm),
    fun hm hl => exec_band_rejected ht ho hi (Parser.bandFault_long hm hl),
    fun hm h0 hl hc => exec_band_rejected ht ho hi (Parser.bandFault_count hm (hlen h0) hl hc),
    fun hm h0 hl hc => ?_⟩
  have hf := Parser.bandFault_none hm (hlen h0) hl hc
  have hcounted : ∀ b, (s.work.parser p).storing = b → (s.work.parser p).counted payload = counted b := by
    rintro _ rfl; rfl
  refine ⟨fun hs => ?_, fun r hs hr => ⟨fun n e hn he hroom => ?_, fun hfull => ?_⟩⟩
  · rw [exec_band_unstored ht (Work.takeBand_notStoring ho hi hf hs), hcounted false hs]
    exact ⟨_, rfl, rfl, by simp⟩
  · have hplace := Work.placeBand_inTail (s.work.parser p).bandCounter hr hn he hroom
    rw [exec_band_stored ht (Work.takeBand_placed ho hi hf hs hplace), hcounted true hs]
    exact ⟨_, rfl, Work.parser_setParser_same _ _ _, Work.findExtent_growExtent payload.length he, rfl,
      Work.findImage_modImage_same (w := s.work.growExtent n payload.length) (ImageRec.stored payload.length) (fun _ => rfl) hr, rfl⟩
  · have hnoRoom := Work.tailRoom_of_full hfull
    refine ⟨fun hfree hquota => ?_, fun hown hshared => ?_⟩
    · obtain ⟨n, hn⟩ := Work.lowestExtent_of_lt hfree
      obtain ⟨hlt, hnone, hbelow⟩ := Work.lowestExtent_spec hn
      have hplace := Work.placeBand_inClaimed (s.work.parser p).bandCounter hr hnoRoom ((Work.claimGranted_iff _ _).mpr hquota) hn
      rw [exec_band_stored ht (Work.takeBand_placed ho hi hf hs hplace), hcounted true hs]
      exact ⟨_, n, rfl, Work.parser_setParser_same _ _ _, hlt, hnone, hbelow, Work.findExtent_claimExtent _ _ _ _ hnone, rfl,
        PerTitle.get_put_same _ _ _,
        Work.findImage_modImage_same (w := s.work.claimExtent i.image (s.work.parser p).bandCounter payload.length n r)
          (ImageRec.extended n payload.length) (fun _ => rfl) hr, rfl⟩
    · have hg : s.work.claimGranted r.key.title = false := by
        rw [← Bool.not_eq_true, Work.claimGranted_iff]
        omega
      have hplace := Work.placeBand_refused (s.work.parser p).bandCounter hr hnoRoom hg
      rw [exec_band_unstored ht (Work.takeBand_notPlaced ho hi hf hs hplace), hcounted true hs]
      exact ⟨_, rfl, Work.parser_setParser_same _ _ _, rfl, rfl,
        Work.findImage_modImage_same (fun r => { r with state := .overrun }) (fun _ => rfl) hr, by simp⟩

/-! ### What a message does outside an image (R36, R39, R40, R44) -/

/-- Settles O34: in DISCARD and in IDLE each message takes its one branch. The later IMAGE_BEGIN finds the parser IDLE again. -/
theorem parsersOutsideAnImage : Obligations.ParsersOutsideAnImage := by
  intro p s
  refine ⟨fun mark payload ht => ⟨fun hd => ?_, fun hi => exec_band_unstored ht (Work.takeBand_idle mark payload hi)⟩,
    fun total crc ht => ⟨fun r hd hr => ?_, fun hi => ?_⟩, fun m r hd hr ht => ?_⟩
  · rw [exec_band_unstored ht (Work.takeBand_discard mark payload hd), State.messageTaken_setWork_same]
  · rw [exec_imageEnd_taken ht, Work.imageEnd_discard _ _ hd, Work.endDiscard_result hr]
  · rw [exec_imageEnd_taken ht, Work.imageEnd_idle _ _ hi]
    rfl
  · have hidle : ((s.work.endDiscard p).parser p).state = .idle := by simp [Work.endDiscard_result hr, Parser.reset]
    rw [← Work.endDiscard_result hr, exec_imageBegin_taken ht, exec_imageBegin_taken (by simpa using ht), Work.imageBegin_discard m hd,
      State.setWork_work, Work.imageBegin_idle m hidle, State.messageTaken_setWork]
    rfl

/-! ### The checks of IMAGE_BEGIN in their order (R32, R34) -/

theorem beginArgumentsOk_iff (m : BeginMsg) : beginArgumentsOk m = true ↔
    1 ≤ m.edition.toNat ∧ m.edition.toNat ≤ 15 ∧ 1 ≤ m.page.toNat ∧ m.page.toNat ≤ 128 ∧ 1 ≤ m.bandCount.toNat
      ∧ m.bandCount.toNat ≤ 1024 ∧ m.bandCount.toNat ≤ m.totalBytes.toNat
      ∧ m.totalBytes.toNat ≤ m.bandCount.toNat * 245760 := by
  simp only [beginArgumentsOk, editionOk, pageOk, bandLimit, Bool.and_eq_true, Nat.ble_eq, and_assoc]

theorem Work.imageFree_eq_false {w : Work} (h : 2048 ≤ w.images.length) : w.imageFree = false := by
  rw [Work.imageFree, ← Bool.not_eq_true, Nat.blt_eq]
  exact Nat.not_lt.mpr h

theorem Work.imageFree_eq_true {w : Work} (h : w.images.length < 2048) : w.imageFree = true := by
  simpa [Work.imageFree, imageLimit] using h

section BeginChecks
variable {t : Title} {m : BeginMsg} {w : Work} {q : PageRec} {sep : Sep}

theorem Work.beginChecks_badArgument (h : beginArgumentsOk m = false) : w.beginChecks t m = .error .badArgument := by
  simp [Work.beginChecks, h]

theorem Work.beginChecks_noPage (ha : beginArgumentsOk m = true) (hp : w.findPage (beginKey t m) = none) :
    w.beginChecks t m = .error .noPage := by
  simp [Work.beginChecks, ha, hp]

theorem Work.beginChecks_pageKilled (ha : beginArgumentsOk m = true) (hp : w.findPage (beginKey t m) = some q)
    (hk : q.state = .killed) : w.beginChecks t m = .error .pageKilled := by
  simp [Work.beginChecks, ha, hp, hk]

theorem Work.beginChecks_editionClosed (ha : beginArgumentsOk m = true) (hp : w.findPage (beginKey t m) = some q)
    (hk : q.state ≠ .killed) (he : w.editionState t m.edition.toNat = some .closed) :
    w.beginChecks t m = .error .editionClosed := by
  simp [Work.beginChecks, ha, hp, hk, he]

theorem Work.beginChecks_badSeparation (ha : beginArgumentsOk m = true) (hp : w.findPage (beginKey t m) = some q)
    (hk : q.state ≠ .killed) (he : w.editionState t m.edition.toNat ≠ some .closed)
    (hs : separationFor q.colour m.separation = none) : w.beginChecks t m = .error .badSeparation := by
  simp [Work.beginChecks, ha, hp, hk, he, hs]

theorem Work.beginChecks_storeFull (ha : beginArgumentsOk m = true) (hp : w.findPage (beginKey t m) = some q)
    (hk : q.state ≠ .killed) (he : w.editionState t m.edition.toNat ≠ some .closed)
    (hs : separationFor q.colour m.separation = some sep) (hf : 2048 ≤ w.images.length) :
    w.beginChecks t m = .error .storeFull := by
  simp [Work.beginChecks, ha, hp, hk, he, hs, Work.imageFree_eq_false hf]

theorem Work.beginChecks_answer {r : Result} (ha : beginArgumentsOk m = true) (hp : w.findPage (beginKey t m) = some q)
    (hk : q.state ≠ .killed) (he : w.editionState t m.edition.toNat ≠ some .closed)
    (hs : separationFor q.colour m.separation = some sep) (hf : w.images.length < 2048)
    (hr : q.beginAnswer sep m.version.toNat = .error r) : w.beginChecks t m = .error r := by
  simp [Work.beginChecks, ha, hp, hk, he, hs, Work.imageFree_eq_true hf, hr]

end BeginChecks

/-- An IMAGE_BEGIN in IDLE that fails a check is refused with that check's result and does nothing else. -/
theorem exec_imageBegin_refused {p : Title} {m : BeginMsg} {s : State} {r : Result}
    (ht : s.takesMessage (.title p) (.imageBegin p m) = true) (hi : (s.work.parser p).state = .idle)
    (hc : s.work.beginChecks p m = .error r) :
    exec (.imageBegin p m) s = .next ((s.messageTaken (.title p)).setWork (s.work.refuseBegin p m r)) := by
  rw [exec_imageBegin_taken ht, Work.imageBegin_idle m hi]
  simp only [Work.beginIdle, hc]

/-- Settles O31: one lemma for each check of R32, given the checks before it passed. -/
theorem imageBeginRefused : Obligations.ImageBeginRefused := by
  intro p m key s answered ht hi hkey
  subst hkey
  have refused {r : Result} (hc : s.work.beginChecks p m = .error r) : answered r := exec_imageBegin_refused ht hi hc
  refine ⟨fun hbad => refused (Work.beginChecks_badArgument ?_), fun ha => ⟨fun hp => refused (Work.beginChecks_noPage ha hp),
    fun q hp => ⟨fun hk => refused (Work.beginChecks_pageKilled ha hp hk),
    fun hk => ⟨fun he => refused (Work.beginChecks_editionClosed ha hp hk he),
    fun he => ⟨fun hs => refused (Work.beginChecks_badSeparation ha hp hk he hs),
    fun sep hs => ⟨fun hf => refused (Work.beginChecks_storeFull ha hp hk he hs hf),
    fun r hf hr => refused (Work.beginChecks_answer ha hp hk he hs hf hr)⟩⟩⟩⟩⟩⟩
  rw [← Bool.not_eq_true, beginArgumentsOk_iff]
  omega

/-! ### RESYNC (R48, R171) -/

theorem Work.parser_toTitle (t u : Title) (n : Notice) (w : Work) : (w.toTitle t n).parser u = w.parser u := by
  simp [Work.parser]

/-- A notice acts on its own port's outbound side alone. -/
theorem Work.outOf_toTitle_congr {v w : Work} {t : Title} (h : v.outOf (.title t) = w.outOf (.title t)) (n : Notice) :
    (v.toTitle t n).outOf (.title t) = (w.toTitle t n).outOf (.title t) := by
  unfold Work.toTitle Work.notify
  rw [h]
  dsimp only
  split <;> simp

section Resync
variable {t : Title} {w : Work}

theorem Work.parserResync_idle (h : (w.parser t).state = .idle) : w.parserResync t = w := by
  simp [Work.parserResync, h]

theorem Work.parserResync_opened {i : OpenImage} (ho : (w.parser t).state = .opened) (hi : (w.parser t).image = some i) :
    w.parserResync t = w.endOpen t i .resync := by
  simp [Work.parserResync, ho, hi]

theorem Work.parserResync_discard (h : (w.parser t).state = .discard) : w.parserResync t = w.endDiscard t := by
  simp [Work.parserResync, h]

theorem Work.parser_endOpen (i : OpenImage) (r : Result) : (w.endOpen t i r).parser t = .reset :=
  Work.parser_setParser_same _ _ _

theorem Work.findImage_endOpen (i : OpenImage) (r : Result) : (w.endOpen t i r).findImage i.image = none := by
  simp [Work.endOpen, Work.submitResult]

/-- Freeing the image tells no port: the SUBMIT_RESULT is all the queue gains. -/
theorem Work.outOf_endOpen (i : OpenImage) (r : Result) : (w.endOpen t i r).outOf (.title t)
    = (w.toTitle t (.submitResult (some i.key) i.sep.index i.version r (w.parser t).bandCounter (w.parser t).byteCount)).outOf
        (.title t) :=
  (Work.outOf_congr (Work.setParser_out _ _ _) _).trans (Work.outOf_toTitle_congr (Work.outOf_congr (Work.freeImage_out _ _) _) _)

end Resync

theorem exec_resync_run {p : Title} {s : State} (h : s.svc.phase = .run) : exec (.resync p) s
    = .next ((s.modPort p TitlePort.resynced).setWork ((s.work.parserResync p).toTitle p .portResynced)) := by
  show execResync p s = _
  simp [execResync, h, State.onWork]

theorem exec_resync_setup {p : Title} {s : State} (h : s.svc.phase = .setup) :
    exec (.resync p) s = .next (s.modPort p (fun x => { x with resyncIn := true })) := by
  show execResync p s = _
  simp [execResync, h]

/-- Settles O22: the parser's three cases of R48, PORT_RESYNCED appended behind each. -/
theorem resyncClearsThePort : Obligations.ResyncClearsThePort := by
  intro p s
  refine ⟨fun hrun => ⟨_, exec_resync_run hrun, rfl, rfl, fun hi => ?_, fun i ho hi => ⟨?_, ?_, ?_⟩, fun r hd hr => ⟨?_, ?_⟩⟩,
    fun hsetup => exec_resync_setup hsetup, rfl⟩
  · rw [State.setWork_work, Work.parserResync_idle hi]
  · rw [State.setWork_work, Work.parser_toTitle, Work.parserResync_opened ho hi, Work.parser_endOpen]
  · rw [State.setWork_work, Work.findImage_toTitle, Work.parserResync_opened ho hi, Work.findImage_endOpen]
  · rw [State.setWork_work, Work.parserResync_opened ho hi]
    exact Work.outOf_toTitle_congr (Work.outOf_endOpen i .resync) _
  · rw [State.setWork_work, Work.parser_toTitle, Work.parserResync_discard hd, Work.endDiscard_result hr, Work.parser_setParser_same]
  · rw [State.setWork_work, Work.parserResync_discard hd, Work.endDiscard_result hr]
    exact Work.outOf_toTitle_congr (Work.outOf_congr (Work.setParser_out _ _ _) _) _

end Sys2Proof.Machine
